-- ==== Sys2Proof/Word.lean ====
section
/-! DEFINITION. The two word types of the machine: every register and memory value is an unsigned bit pattern of a stated
width (spec/00_scope.md R6, R11, R12). -/

namespace Sys2Proof

/-- A `u8`: one bus access moves one (R6, R61). -/
abbrev Byte := BitVec 8

/-- A `u16`: an address, a register pair, `sp`, `pc` (R6). -/
abbrev Word := BitVec 16

end Sys2Proof
end

