-- ==== Sys2Proof/Machine/Bits.lean ====
section
/-! DEFINITION. Bit fields, sign extension and byte order (spec/00_scope.md R11, R12; spec/20_memory.md R78). -/

namespace Sys2Proof.Machine

/-- `v[15:8]` (R11). -/
def hiByte (v : Word) : Byte := v.extractLsb' 8 8

/-- `v[7:0]` (R11). -/
def loByte (v : Word) : Byte := v.extractLsb' 0 8

/-- The concatenation `hi:lo`, left operand most significant (R11). -/
def word (hi lo : Byte) : Word := hi ++ lo

/-- `sext_16(e)` is `e` if `e < 128`, else `e + 0xFF00` (R12). -/
def sext16 (e : Byte) : Word := e.signExtend 16

/-- `zext_16(v)` (R12). -/
def zext16 (v : Byte) : Word := v.setWidth 16

/-- A one-bit value as the byte 0 or 1. -/
def bitByte (b : Bool) : Byte := if b then 1 else 0

/-- The byte with only bit `b` set, `1 << b` (R253, R255). -/
def bitMask (b : BitVec 3) : Byte := 1 <<< b.toNat

/-- The bits `hi..lo` of an opcode byte as a number (spec/30_encoding.md R100). -/
def field (op : Byte) (lo width : Nat) : Nat := (op.extractLsb' lo width).toNat

end Sys2Proof.Machine
end

