-- ==== Sys2Proof/Machine/Memory.lean ====
section
/-! DEFINITION. The 65536-byte array `flat` (spec/10_state.md R42) as a list of cells in one canonical form: addresses strictly
rising, all below 65536, and no cell equal to what an unlisted address reads as. -/

namespace Sys2Proof.Machine

/-- The bytes of `flat` that differ from `Memory.blank`, addresses strictly rising. -/
abbrev Memory := List Host.Cell

/-- What an unlisted byte reads as. 0x00 for unhandled I/O-window bytes (R363). DESIGN CHOICE for RAM, unsafe: the spec leaves its
contents open (log 2). -/
def Memory.blank : Byte := 0x00

/-- The byte at an address given as a number. -/
def Memory.readAt (m : Memory) (k : Nat) : Byte :=
  match m with
  | [] => Memory.blank
  | (j, v) :: rest => if j = k then v else Memory.readAt rest k

/-- The list with the byte at `k` set, still in canonical form. -/
def Memory.writeAt (m : Memory) (k : Nat) (v : Byte) : Memory :=
  match m with
  | [] => if v = Memory.blank then [] else [(k, v)]
  | (j, w) :: rest =>
    if k < j then
      if v = Memory.blank then (j, w) :: rest else (k, v) :: (j, w) :: rest
    else if k = j then
      if v = Memory.blank then rest else (k, v) :: rest
    else
      (j, w) :: Memory.writeAt rest k v

/-- `flat[a]` (R42). -/
def Memory.read (m : Memory) (a : Word) : Byte := m.readAt a.toNat

/-- `flat[a] <- v` (R42). -/
def Memory.write (m : Memory) (a : Word) (v : Byte) : Memory := m.writeAt a.toNat v

/-- Every cell's address is at least `lo` and they rise strictly, inside the address space, none holding the blank byte. -/
def Memory.wfFrom (lo : Nat) (m : Memory) : Bool :=
  match m with
  | [] => true
  | (j, v) :: rest => decide (lo ≤ j) && decide (j < 65536) && decide (v ≠ Memory.blank) && Memory.wfFrom (j + 1) rest

/-- The canonical form. -/
def Memory.wf (m : Memory) : Bool := Memory.wfFrom 0 m

end Sys2Proof.Machine
end

