-- ==== Sys2Proof/Config.lean ====
section
/-! DEFINITION. What is fixed when a machine is built: the parameters of spec/00_scope.md R7, as plain data, and the
uninterpreted functions that stand for everything outside the CORE (spec/93_implementation_defined.md U15, U16). The default
values are in Sys2Proof/Machine/Params.lean. -/

namespace Sys2Proof

/-- `ACCESS_PHASE` (R7, R74, D4): whether a bus access happens before or after the timer tick of its M-cycle. -/
inductive AccessPhase where
  | accessThenTick
  | tickThenAccess
  deriving DecidableEq, Repr

/-- `IE_UPPER` (R7, R30, D19): what a bus write does with bits 7..5 of IE. -/
inductive IeUpper where
  | stored
  | dropped
  deriving DecidableEq, Repr

/-- `PLATFORM` (R7, R64, D21): flat 64 KiB of RAM whose `Notify` does nothing, or a platform with a state of its own. -/
inductive Platform where
  | flat
  | external
  deriving DecidableEq, Repr

/-- `RESET_PROFILE` (R7, R46, D24). -/
inductive ResetProfile where
  | powerOn
  | postBootDmg
  deriving DecidableEq, Repr

/-- The addresses `lo .. hi`, both included. -/
structure AddrRange where
  lo : Word
  hi : Word
  deriving DecidableEq, Repr

/-- `TAC_BIT` (R7, R39, D15): the divider bit that each value of TAC[1:0] selects. -/
structure TacBits where
  sel0 : Fin 16
  sel1 : Fin 16
  sel2 : Fin 16
  sel3 : Fin 16
  deriving DecidableEq, Repr

/-- `REG_ADDR` (R7, D14): the bus addresses of the six CORE-owned registers. -/
structure RegAddr where
  div  : Word
  tima : Word
  tma  : Word
  tac  : Word
  ifr  : Word
  ie   : Word
  deriving DecidableEq, Repr

/-- The parameters of R7 that rules consult while the machine runs. A machine carries one such record, fixed at construction;
no step changes it. (`REG_ADDR` is what the registry is built from, `RESET_PROFILE` what the registers start from.) -/
structure Config where
  accessPhase : AccessPhase
  selfJumpCheck : Bool
  ieUpper : IeUpper
  tacBit : TacBits
  ioWindow : List AddrRange
  mustHaveHandler : List Word
  platform : Platform
  deriving DecidableEq, Repr

/-! ### The environment, uninterpreted

The joint state of the platform and of the peripherals is one natural number (`State.env`). What they do with it no source
says (U15, U16), so each operation is a constant without a body: a claim that holds of the model holds whatever they do. -/

/-- `PlatformRead` of an external platform (R64), idempotent (D21). -/
opaque Config.platformRead : Nat → Word → Byte

/-- `PlatformWrite` of an external platform (R64): the state afterwards. -/
opaque Config.platformWrite : Nat → Word → Byte → Nat

/-- `Notify n` of an external platform (R342): the state afterwards and the set of interrupt types requested (R312). -/
opaque Config.platformNotify : Nat → Nat → Nat × BitVec 5

/-- `ReadByte` of a peripheral's handler (R71): the byte, and the peripheral's state afterwards (R82). -/
opaque Config.peripheralRead : Nat → Word → Byte × Nat

/-- `WriteByte` of a peripheral's handler (R71): whether it answers `handled`, and the peripheral's state afterwards. -/
opaque Config.peripheralWrite : Nat → Word → Byte → Bool × Nat

end Sys2Proof
end

