-- ==== Sys2Proof/Machine/Params.lean ====
section
/-! DEFINITION. The default parameters of spec/00_scope.md R7 and the two reset profiles of spec/10_state.md R46. -/

namespace Sys2Proof.Machine.Params

/-- `REG_ADDR` (R7, D14). -/
def regAddr : RegAddr :=
  { div := 0xFF04, tima := 0xFF05, tma := 0xFF06, tac := 0xFF07, ifr := 0xFF0F, ie := 0xFFFF }

/-- `TAC_BIT` (R7, D15): 0 -> 9, 1 -> 3, 2 -> 5, 3 -> 7. -/
def tacBit : TacBits := { sel0 := 9, sel1 := 3, sel2 := 5, sel3 := 7 }

/-- `IO_WINDOW` (R7, D20): 0xFF00..0xFF7F and 0xFFFF. -/
def ioWindow : List AddrRange := [{ lo := 0xFF00, hi := 0xFF7F }, { lo := 0xFFFF, hi := 0xFFFF }]

/-- The parameters a running machine consults, at their defaults (R7). -/
def config : Config :=
  { accessPhase := .accessThenTick
    selfJumpCheck := false
    ieUpper := .stored
    tacBit := tacBit
    ioWindow := ioWindow
    mustHaveHandler := []
    platform := .flat }

/-- One column of the reset table (R46). Booleans stand for one-bit values. -/
structure ResetValues where
  a : Byte
  f : Byte
  b : Byte
  c : Byte
  d : Byte
  e : Byte
  h : Byte
  l : Byte
  sp : Word
  pc : Word
  ime : Bool
  ie : Byte
  ifr : BitVec 5
  eiDelay : Bool
  halted : Bool
  haltBug : Bool
  counter : Word
  tima : Byte
  tma : Byte
  tac : BitVec 3
  reloadPending : Bool
  cycles : Nat
  deriving DecidableEq, Repr

/-- `power_on` (R46, R361). -/
def powerOn : ResetValues :=
  { a := 0x00, f := 0x00, b := 0x00, c := 0x00, d := 0x00, e := 0x00, h := 0x00, l := 0x00
    sp := 0x0000, pc := 0x0000
    ime := false, ie := 0x00, ifr := 0b00000
    eiDelay := false, halted := false, haltBug := false
    counter := 0x0000, tima := 0x00, tma := 0x00, tac := 0b000, reloadPending := false
    cycles := 0 }

/-- `post_boot_dmg` (R46, R362). -/
def postBootDmg : ResetValues :=
  { a := 0x01, f := 0xB0, b := 0x00, c := 0x13, d := 0x00, e := 0xD8, h := 0x01, l := 0x4D
    sp := 0xFFFE, pc := 0x0100
    ime := false, ie := 0x00, ifr := 0b00001
    eiDelay := false, halted := false, haltBug := false
    counter := 0xABCC, tima := 0x00, tma := 0x00, tac := 0b000, reloadPending := false
    cycles := 0 }

/-- The profile's values (R7 `RESET_PROFILE`, D24). -/
def profile : ResetProfile → ResetValues
  | .powerOn => powerOn
  | .postBootDmg => postBootDmg

end Sys2Proof.Machine.Params
end

