-- ==== Sys2Proof/Machine/State.lean ====
section
/-! DEFINITION. The state of the machine: every piece of state of spec/10_state.md, the parameters it was built with, and the
joint state of the environment, as plain data; the reasons a step can stop; the state after reset. -/

namespace Sys2Proof.Machine

/-- The six registers the CORE owns on the bus (R47, R72). -/
inductive CoreReg where
  | div | tima | tma | tac | ifr | ie
  deriving DecidableEq, Repr

/-- Who answers an I/O address (R70, R71): the CORE itself, or a peripheral outside it. -/
inductive Handler where
  | core (r : CoreReg)
  | peripheral
  deriving DecidableEq, Repr

/-- The five interrupt sources in priority order (R314). -/
inductive Irq where
  | vblank | stat | timer | serial | joypad
  deriving DecidableEq, Repr

/-- The kinds of fatal error (R320). -/
inductive FaultKind where
  /-- `STOP` and the eleven invalid opcode bytes (R321) -/
  | illegalOpcode
  /-- a bus read of an address in `MUST_HAVE_HANDLER` that has no handler (R322) -/
  | handlerMissing
  /-- a taken `JR` or `JP` to its own address, when `SELF_JUMP_CHECK` is true (R323) -/
  | selfJump
  deriving DecidableEq, Repr

/-- The fault record (R43, R320). `op` is none only where the opcode fetch itself raised, so that there is no opcode (log 6). -/
structure FaultRecord where
  kind : FaultKind
  op : Option Byte
  addr : Word
  deriving DecidableEq, Repr

/-- The machine (spec/10_state.md). Pairs, DIV and the flags are views, not fields (R21, R26, R36). -/
@[ext]
structure State where
  /-- R20 -/
  a : Byte
  /-- the flags Z, N, H, C in bits 7..4 (R26); bits 3..0 are 0 (R27) -/
  f : Byte
  /-- R20 -/
  b : Byte
  /-- R20 -/
  c : Byte
  /-- R20 -/
  d : Byte
  /-- R20 -/
  e : Byte
  /-- R20 -/
  h : Byte
  /-- R20 -/
  l : Byte
  /-- R23 -/
  sp : Word
  /-- R24 -/
  pc : Word
  /-- the interrupt master enable (R29) -/
  ime : Bool
  /-- Interrupt Enable (R30) -/
  ie : Byte
  /-- Interrupt Flag, the five stored bits (R31) -/
  ifr : BitVec 5
  /-- `enableInterruptsDelay` (R32) -/
  eiDelay : Bool
  /-- R33 -/
  halted : Bool
  /-- R34 -/
  haltBug : Bool
  /-- the divider; DIV is its high byte (R35, R36) -/
  counter : Word
  /-- R37 -/
  tima : Byte
  /-- R38 -/
  tma : Byte
  /-- the three stored bits (R39) -/
  tac : BitVec 3
  /-- `timaReloadPending` (R40) -/
  reloadPending : Bool
  /-- who answers each I/O address; fixed at construction (R41) -/
  registry : List (Word × Handler)
  /-- R42 -/
  flat : Memory
  /-- R43 -/
  faulted : Option FaultRecord
  /-- T-cycles since reset, which no rule reads (R45) -/
  cycles : Nat
  /-- the parameters of R7, fixed at construction -/
  cfg : Config
  /-- the joint state of the platform and the peripherals (R64, R71), opaque to the CORE (log 8) -/
  env : Nat
  /-- the model's own: the opcode of the instruction being executed, none while it is being fetched (R101, log 6) -/
  curOp : Option Byte
  /-- the model's own: `opaddr`, where that opcode was fetched from (R101, log 6) -/
  opaddr : Word
  deriving DecidableEq, Repr

/-- Why a step stops. -/
inductive Fault where
  /-- Raised by `step` on a machine whose `faulted` is already set, and by nothing else: R324, "it must not continue fetching".
  Safe: the machine has no further step. -/
  | machineFaulted (r : FaultRecord)
  deriving DecidableEq, Repr

/-- Why an instruction has no meaning here. -/
inductive Refusal where
  /-- An arm of `exec` whose instruction has no meaning yet. Safe. No arm of this model answers it. -/
  | notModelled (mnemonic : String)
  deriving DecidableEq, Repr

/-- The registry that construction builds for a given `REG_ADDR` (R41, R72): the six CORE handlers. -/
def coreRegistry (r : RegAddr) : List (Word × Handler) :=
  [(r.div, .core .div), (r.tima, .core .tima), (r.tma, .core .tma), (r.tac, .core .tac), (r.ifr, .core .ifr),
   (r.ie, .core .ie)]

/-- A machine in a profile's reset state, with given parameters, registry, memory and environment (R360). -/
def State.ofProfile (v : Params.ResetValues) (cfg : Config) (registry : List (Word × Handler)) (flat : Memory) (env : Nat) :
    State :=
  { a := v.a, f := v.f, b := v.b, c := v.c, d := v.d, e := v.e, h := v.h, l := v.l
    sp := v.sp, pc := v.pc
    ime := v.ime, ie := v.ie, ifr := v.ifr
    eiDelay := v.eiDelay, halted := v.halted, haltBug := v.haltBug
    counter := v.counter, tima := v.tima, tma := v.tma, tac := v.tac, reloadPending := v.reloadPending
    registry := registry, flat := flat, faulted := none, cycles := v.cycles
    cfg := cfg, env := env, curOp := none, opaddr := 0x0000 }

/-- The machine right after reset: profile `power_on`, every parameter at its default, no peripheral, no program (R46, R360,
R361; log 1, log 3). -/
def State.reset : State :=
  State.ofProfile Params.powerOn Params.config (coreRegistry Params.regAddr) [] 0

end Sys2Proof.Machine
end

