-- ==== Sys2Proof/Machine/Ops.lean ====
section
/-! DEFINITION. The named operations of spec/00_scope.md R13 over the state: raising a fault, the timer, the interrupt
controller, the bus, the timed accesses, fetching, the stack, interrupt dispatch (taking an exception) and the return from it. -/

namespace Sys2Proof.Machine

/-! ### Results of operations that can raise -/

/-- What an operation that may read the bus answers: a value and the state, or, where it raised a fault, the state in which the
step ends (R320). -/
inductive Flow (α : Type) where
  | ok (v : α) (s : State)
  | raised (s : State)
  deriving DecidableEq, Repr

/-- Go on with the value and the state; a raise ends the step, "no later statement of the step runs" (R320). -/
def Flow.bind {α β : Type} (x : Flow α) (k : α → State → Flow β) : Flow β :=
  match x with
  | .ok v s => k v s
  | .raised s => .raised s

/-- Go on with operations that cannot raise. -/
def Flow.map {α β : Type} (x : Flow α) (k : α → State → β × State) : Flow β :=
  match x with
  | .ok v s => .ok (k v s).1 (k v s).2
  | .raised s => .raised s

/-- The end of a meaning: the last statements, none of which can raise. A raised fault is a next state too, with `faulted` set
(R320, log 5). -/
def Flow.finish {α : Type} (x : Flow α) (k : α → State → State) : Host.Outcome State Fault Refusal :=
  match x with
  | .ok v s => .next (k v s)
  | .raised s => .next s

/-- The end of a meaning whose last statement may raise. -/
def Flow.outcome {α : Type} (x : Flow α) : Host.Outcome State Fault Refusal :=
  x.finish fun _ s => s

/-- `faulted <- (kind, op, addr)` (R320) with the current opcode as `op`. -/
def raiseFault (kind : FaultKind) (addr : Word) (s : State) : State :=
  { s with faulted := some { kind := kind, op := s.curOp, addr := addr } }

/-! ### Interrupt sources and requests -/

/-- The type number, which is also the IE and IF bit (R314, D32). -/
def Irq.num : Irq → Nat
  | .vblank => 0
  | .stat => 1
  | .timer => 2
  | .serial => 3
  | .joypad => 4

/-- The vector `0x0040 + 8*t` (R314). -/
def Irq.vector (t : Irq) : Word := BitVec.ofNat 16 (0x0040 + 8 * t.num)

/-- The bit of IE and IF that belongs to the source (R314). -/
def Irq.mask (t : Irq) : BitVec 5 := 1 <<< t.num

/-- `RequestInterrupt(t)`: `IF[t] <- 1` (R311). -/
def requestInterrupt (t : Irq) (s : State) : State := { s with ifr := s.ifr ||| t.mask }

/-- `ClearInterrupt(t)`: `IF[t] <- 0` (R313). -/
def clearInterrupt (t : Irq) (s : State) : State := { s with ifr := s.ifr &&& ~~~t.mask }

/-- `IE & IF & 0x1F` (R310). -/
def pending (s : State) : BitVec 5 := s.ie.setWidth 5 &&& s.ifr

/-- `CheckInterrupts()`: the least type that is pending and enabled (R310). -/
def checkInterrupts (s : State) : Option Irq :=
  [Irq.vblank, .stat, .timer, .serial, .joypad].find? fun t => (pending s).getLsbD t.num

/-! ### The timer -/

/-- `IncrementTima()` (R341). -/
def incrementTima (s : State) : State :=
  { s with tima := s.tima + 1, reloadPending := if s.tima + 1 = 0 then true else s.reloadPending }

/-- `TAC_BIT[TAC[1:0]]` (R39, R340). -/
def tacSelectedBit (s : State) : Nat :=
  match s.tac.getLsbD 1, s.tac.getLsbD 0 with
  | false, false => s.cfg.tacBit.sel0
  | false, true => s.cfg.tacBit.sel1
  | true, false => s.cfg.tacBit.sel2
  | true, true => s.cfg.tacBit.sel3

/-- `TimerEdge(old, new)` (R340): a falling edge of the selected bit while TAC[2] = 1 increments TIMA. -/
def timerEdge (old new : Word) (s : State) : State :=
  if old.getLsbD (tacSelectedBit s) && !new.getLsbD (tacSelectedBit s) && s.tac.getLsbD 2 then incrementTima s else s

/-- The first part of `Tick()`: the delayed reload (R343). -/
def applyReload (s : State) : State :=
  if s.reloadPending then requestInterrupt .timer { s with tima := s.tma, reloadPending := false } else s

/-- The second part of `Tick()`: the divider advances by 4 and the edge is evaluated (R340, R35). -/
def advanceCounter (s : State) : State :=
  timerEdge s.counter (s.counter + 4) { s with counter := s.counter + 4 }

/-- `Notify(n)` (R342): nothing on the flat platform (R64); an external platform changes its own state and may request
interrupts (R312), nothing else. -/
def notify (n : Nat) (s : State) : State :=
  match s.cfg.platform with
  | .flat => s
  | .external =>
    { s with env := (Config.platformNotify s.env n).1, ifr := s.ifr ||| (Config.platformNotify s.env n).2 }

/-- `Tick()`, one M-cycle: reload, advance, edge, count, notify, in that order (R340, D16). -/
def tick (s : State) : State :=
  let s1 := advanceCounter (applyReload s)
  notify 4 { s1 with cycles := s1.cycles + 4 }

/-- `Internal()`, an M-cycle with no bus access (R76). -/
def internal (s : State) : State := tick s

/-- `ResetDivider()`, the effect of any bus write to DIV (R344). -/
def resetDivider (s : State) : State := timerEdge s.counter 0 { s with counter := 0 }

/-! ### The bus -/

/-- Whether the address is routed through the handler registry (R62, R68). -/
def inWindow (cfg : Config) (a : Word) : Bool :=
  cfg.ioWindow.any fun r => decide (r.lo ≤ a) && decide (a ≤ r.hi)

/-- `ReadByte` of a CORE register (R72): TAC and IF read their unused bits as 1. -/
def readCore (r : CoreReg) (s : State) : Byte :=
  match r with
  | .div => hiByte s.counter
  | .tima => s.tima
  | .tma => s.tma
  | .tac => s.tac.setWidth 8 ||| 0xF8
  | .ifr => s.ifr.setWidth 8 ||| 0xE0
  | .ie => s.ie

/-- What a write stores in IE (R30, D19). -/
def ieStored (cfg : Config) (v : Byte) : Byte :=
  match cfg.ieUpper with
  | .stored => v
  | .dropped => v &&& 0x1F

/-- `WriteByte` of a CORE register (R72); it always answers `handled`. -/
def writeCore (r : CoreReg) (v : Byte) (s : State) : State :=
  match r with
  | .div => resetDivider s
  | .tima => { s with tima := v }
  | .tma => { s with tma := v }
  | .tac => { s with tac := v.setWidth 3 }
  | .ifr => { s with ifr := v.setWidth 5 }
  | .ie => { s with ie := ieStored s.cfg v }

/-- The unusable region, from which an external platform reads 0 (R65). -/
def unusable (a : Word) : Bool := decide (0xFEA0#16 ≤ a) && decide (a ≤ 0xFEFF#16)

/-- `PlatformRead(a)` (R64, R65). -/
def platformRead (a : Word) (s : State) : Byte :=
  match s.cfg.platform with
  | .flat => s.flat.read a
  | .external => if unusable a then 0 else Config.platformRead s.env a

/-- `PlatformWrite(a, v)` (R64). -/
def platformWrite (a : Word) (v : Byte) (s : State) : State :=
  match s.cfg.platform with
  | .flat => { s with flat := s.flat.write a v }
  | .external => { s with env := Config.platformWrite s.env a v }

/-- The handler's `ReadByte(a)` (R71); a peripheral's read may change the peripheral's own state (R82). -/
def readHandler (h : Handler) (a : Word) (s : State) : Flow Byte :=
  match h with
  | .core r => .ok (readCore r s) s
  | .peripheral => .ok (Config.peripheralRead s.env a).1 { s with env := (Config.peripheralRead s.env a).2 }

/-- The handler's `WriteByte(a, v)` and, where it answers `not_handled`, the fall-through to `flat` (R69, R71). -/
def writeHandler (h : Handler) (a : Word) (v : Byte) (s : State) : State :=
  match h with
  | .core r => writeCore r v s
  | .peripheral =>
    let s1 := { s with env := (Config.peripheralWrite s.env a v).2 }
    if (Config.peripheralWrite s.env a v).1 then s1 else { s1 with flat := s1.flat.write a v }

/-- `BusRead(a)` (R68, R73). -/
def busRead (a : Word) (s : State) : Flow Byte :=
  if inWindow s.cfg a then
    match s.registry.lookup a with
    | some h => readHandler h a s
    | none => if s.cfg.mustHaveHandler.contains a then .raised (raiseFault .handlerMissing a s) else .ok (s.flat.read a) s
  else .ok (platformRead a s) s

/-- `BusWrite(a, v)`; it never faults (R69). -/
def busWrite (a : Word) (v : Byte) (s : State) : State :=
  if inWindow s.cfg a then
    match s.registry.lookup a with
    | some h => writeHandler h a v s
    | none => { s with flat := s.flat.write a v }
  else platformWrite a v s

/-- A read of the address cannot raise `HandlerMissing` (R73): a condition on the construction alone. -/
def readable (a : Word) (s : State) : Bool :=
  !(inWindow s.cfg a && (s.registry.lookup a).isNone && s.cfg.mustHaveHandler.contains a)

/-! ### Timed accesses -/

/-- `MemRead(a, 1)`, one read M-cycle (R74; the order of access and tick is `ACCESS_PHASE`, D4). -/
def memRead (a : Word) (s : State) : Flow Byte :=
  match s.cfg.accessPhase with
  | .accessThenTick => (busRead a s).map fun v s1 => (v, tick s1)
  | .tickThenAccess => busRead a (tick s)

/-- `MemWrite(a, 1, v)`, one write M-cycle (R75, D4). -/
def memWrite (a : Word) (v : Byte) (s : State) : State :=
  match s.cfg.accessPhase with
  | .accessThenTick => tick (busWrite a v s)
  | .tickThenAccess => busWrite a v (tick s)

/-- `MemWrite(a, 2, v)`: low byte first, at the lower address (R77). -/
def memWrite16 (a : Word) (v : Word) (s : State) : State :=
  memWrite (a + 1) (hiByte v) (memWrite a (loByte v) s)

/-! ### Fetching -/

/-- `FetchOpcode()` (R101): the halt bug suppresses the advance of `pc` for this one fetch. -/
def fetchOpcode (s : State) : Flow Byte :=
  (memRead s.pc { s with curOp := none, opaddr := s.pc }).map fun op s1 =>
    (op, { s1 with curOp := some op, pc := if s1.haltBug then s1.pc else s1.pc + 1, haltBug := false })

/-- `Fetch8()` (R102). -/
def fetch8 (s : State) : Flow Byte :=
  (memRead s.pc s).map fun v s1 => (v, { s1 with pc := s1.pc + 1 })

/-- `Fetch16()`: low byte first (R103). -/
def fetch16 (s : State) : Flow Word :=
  (fetch8 s).bind fun lo s1 => (fetch8 s1).map fun hi s2 => (word hi lo, s2)

/-! ### The stack -/

/-- `Push16(v)`: high byte first, each after a decrement of `sp` (R160). -/
def push16 (v : Word) (s : State) : State :=
  let s1 := memWrite (s.sp - 1) (hiByte v) { s with sp := s.sp - 1 }
  memWrite (s1.sp - 1) (loByte v) { s1 with sp := s1.sp - 1 }

/-- One half of `Pop16()`: a read at `sp`, then the increment (R161). -/
def pop8 (s : State) : Flow Byte :=
  (memRead s.sp s).map fun v s1 => (v, { s1 with sp := s1.sp + 1 })

/-- `Pop16()`: low byte first (R161). -/
def pop16 (s : State) : Flow Word :=
  (pop8 s).bind fun lo s1 => (pop8 s1).map fun hi s2 => (word hi lo, s2)

/-! ### Taking an interrupt and returning from it -/

/-- `Dispatch(t)`, trap entry (R315): IME is cleared, `pc` is pushed, the IF bit is cleared, `pc` is the vector; five M-cycles. -/
def dispatch (t : Irq) (s : State) : State :=
  let s1 := internal (internal { s with ime := false })
  let s2 := clearInterrupt t (push16 s1.pc s1)
  internal { s2 with pc := t.vector }

/-- The return from a handler (R270, R318): pop `pc`, one internal M-cycle, IME set at once. -/
def returnFromInterrupt (s : State) : Host.Outcome State Fault Refusal :=
  (pop16 s).finish fun v s1 => { internal { s1 with pc := v } with ime := true }

end Sys2Proof.Machine
end

