-- ==== Sys2Proof/Machine/Flags.lean ====
section
/-! DEFINITION. The flags in F (spec/10_state.md R26, R27) and every computation of a result with its flags: Add8 and Sub8
(spec/42_alu8.md R180, R181), the logic operations, INC and DEC, DAA (R211), the 16-bit additions (spec/43_alu16.md R220, R221)
and the rotates and shifts (spec/44_rotate_shift_bit.md R234). -/

namespace Sys2Proof.Machine

/-! ### Reading and writing F -/

/-- `flag.Z = F[7]` (R26). -/
def State.flagZ (s : State) : Bool := s.f.getLsbD 7

/-- `flag.N = F[6]` (R26). -/
def State.flagN (s : State) : Bool := s.f.getLsbD 6

/-- `flag.H = F[5]` (R26). -/
def State.flagH (s : State) : Bool := s.f.getLsbD 5

/-- `flag.C = F[4]` (R26). -/
def State.flagC (s : State) : Bool := s.f.getLsbD 4

/-- The four flags at their places in F. -/
def packFlags (z n h c : Bool) : Byte :=
  (bitByte z <<< 7) ||| (bitByte n <<< 6) ||| (bitByte h <<< 5) ||| (bitByte c <<< 4)

/-- Write the four flags: bits 7..4 of F, and only those (R27, D36). -/
def State.setFlags (s : State) (z n h c : Bool) : State :=
  { s with f := (s.f &&& 0x0F) ||| packFlags z n h c }

/-! ### Results -/

/-- An 8-bit result and the four flags, as `Add8` and `Sub8` return them. -/
structure AluOut where
  r : Byte
  z : Bool
  n : Bool
  h : Bool
  c : Bool
  deriving DecidableEq, Repr

/-- `Add8(x, y, cin)` (R180). -/
def add8 (x y : Byte) (cin : Bool) : AluOut :=
  let sum := x.toNat + y.toNat + cin.toNat
  let r := BitVec.ofNat 8 sum
  { r := r
    z := r == 0
    n := false
    h := decide (x.toNat % 16 + y.toNat % 16 + cin.toNat > 0x0F)
    c := decide (sum > 0xFF) }

/-- `Sub8(x, y, cin)`, `cin` the borrow in (R181). -/
def sub8 (x y : Byte) (cin : Bool) : AluOut :=
  let r := BitVec.ofInt 8 ((x.toNat : Int) - (y.toNat : Int) - (cin.toNat : Int))
  { r := r
    z := r == 0
    n := true
    h := decide (x.toNat % 16 < y.toNat % 16 + cin.toNat)
    c := decide (x.toNat < y.toNat + cin.toNat) }

/-- AND: H = 1, N = C = 0 (R195). -/
def and8 (x y : Byte) : AluOut := { r := x &&& y, z := x &&& y == 0, n := false, h := true, c := false }

/-- XOR: N = H = C = 0 (R198). -/
def xor8 (x y : Byte) : AluOut := { r := x ^^^ y, z := x ^^^ y == 0, n := false, h := false, c := false }

/-- OR: N = H = C = 0 (R201). -/
def or8 (x y : Byte) : AluOut := { r := x ||| y, z := x ||| y == 0, n := false, h := false, c := false }

/-- INC of a byte, with the C it found (R207). -/
def inc8 (v : Byte) (c : Bool) : AluOut :=
  { r := v + 1, z := v + 1 == 0, n := false, h := v &&& 0x0F == 0x0F, c := c }

/-- DEC of a byte, with the C it found (R209). -/
def dec8 (v : Byte) (c : Bool) : AluOut :=
  { r := v - 1, z := v - 1 == 0, n := true, h := v &&& 0x0F == 0x00, c := c }

/-- What DAA adds after an addition or subtracts after a subtraction (R211). Both tests of the addition branch look at the
original A. -/
def daaAdjust (a : Byte) (n h c : Bool) : Byte :=
  if n then (if h then 0x06 else 0x00) + (if c then 0x60 else 0x00)
  else (if h || decide ((a &&& 0x0F).toNat > 0x09) then 0x06 else 0x00) + (if c || decide (a.toNat > 0x99) then 0x60 else 0x00)

/-- DAA (R211): Z of the new A, N unchanged, H = 0, C set by a decimal carry and never cleared. -/
def daa8 (a : Byte) (n h c : Bool) : AluOut :=
  let r := if n then a - daaAdjust a n h c else a + daaAdjust a n h c
  { r := r
    z := r == 0
    n := n
    h := false
    c := c || (!n && decide (a.toNat > 0x99)) }

/-- A 16-bit result and the H and C it gives. -/
structure Alu16Out where
  r : Word
  h : Bool
  c : Bool
  deriving DecidableEq, Repr

/-- The 16-bit addition of `ADD HL,rr`: H out of bit 11, C out of bit 15 (R221). -/
def add16 (x y : Word) : Alu16Out :=
  { r := BitVec.ofNat 16 (x.toNat + y.toNat)
    h := decide (x.toNat % 0x1000 + y.toNat % 0x1000 > 0x0FFF)
    c := decide (x.toNat + y.toNat > 0xFFFF) }

/-- `AddSP(e)`: H and C from the low byte, with `e` as an unsigned byte (R220). -/
def addSp (sp : Word) (e : Byte) : Alu16Out :=
  { r := sp + sext16 e
    h := decide (sp.toNat % 0x10 + e.toNat % 0x10 > 0x0F)
    c := decide (sp.toNat % 0x100 + e.toNat > 0xFF) }

/-! ### Rotates and shifts -/

/-- The result of a rotate or shift and the new C (R234). -/
structure RotOut where
  r : Byte
  c : Bool
  deriving DecidableEq, Repr

/-- A rotate or shift, from the old carry and the old value. -/
abbrev RotFn := Bool → Byte → RotOut

/-- `((v << 1) mod 256) or v[7]`; C = v[7] (R234). -/
def rlc8 : RotFn := fun _ v => { r := (v <<< 1) ||| bitByte (v.getLsbD 7), c := v.getLsbD 7 }

/-- `(v >> 1) or (v[0] << 7)`; C = v[0] (R234). -/
def rrc8 : RotFn := fun _ v => { r := (v >>> 1) ||| (bitByte (v.getLsbD 0) <<< 7), c := v.getLsbD 0 }

/-- `((v << 1) mod 256) or cf`; C = v[7] (R234). -/
def rl8 : RotFn := fun cf v => { r := (v <<< 1) ||| bitByte cf, c := v.getLsbD 7 }

/-- `(v >> 1) or (cf << 7)`; C = v[0] (R234). -/
def rr8 : RotFn := fun cf v => { r := (v >>> 1) ||| (bitByte cf <<< 7), c := v.getLsbD 0 }

/-- `(v << 1) mod 256`; C = v[7] (R234). -/
def sla8 : RotFn := fun _ v => { r := v <<< 1, c := v.getLsbD 7 }

/-- `(v >> 1) or (v & 0x80)`; C = v[0] (R234). -/
def sra8 : RotFn := fun _ v => { r := (v >>> 1) ||| (v &&& 0x80), c := v.getLsbD 0 }

/-- `((v << 4) mod 256) or (v >> 4)`; C = 0 (R234). -/
def swap8 : RotFn := fun _ v => { r := (v <<< 4) ||| (v >>> 4), c := false }

/-- `v >> 1`; C = v[0] (R234). -/
def srl8 : RotFn := fun _ v => { r := v >>> 1, c := v.getLsbD 0 }

end Sys2Proof.Machine
end

