-- ==== Sys2Proof/Syntax.lean ====
section
/-! DEFINITION. The instructions, one constructor per mnemonic of spec/opcode_table.json, with their operands as constructors
and immediates as bytes and words (spec/30_encoding.md R104 to R107, R112, R119). -/

namespace Sys2Proof

/-- The seven registers of the 3-bit operand code (R104); its code 6, the byte at HL, is a form of its own. -/
inductive Reg8 where
  | b | c | d | e | h | l | a
  deriving DecidableEq, Repr

/-- The `r16[p]` column of R106. -/
inductive Reg16 where
  | bc | de | hl | sp
  deriving DecidableEq, Repr

/-- The `r16stk[p]` column of R106. -/
inductive RegStk where
  | bc | de | hl | af
  deriving DecidableEq, Repr

/-- The condition codes of R107. -/
inductive Cond where
  | nz | z | nc | c
  deriving DecidableEq, Repr

/-- The instructions. In a name, `R` is a register operand, `Hl` the byte at HL, `N` an 8-bit and `Nn` a 16-bit immediate, `E` a
signed displacement byte, `Hli` and `Hld` the byte at HL with HL incremented and decremented afterwards. -/
inductive Instr where
  /-- `NOP` (R280) -/
  | nop
  /-- `LD (nn),SP` (R163) -/
  | ldNnSp (nn : Word)
  /-- `STOP` (R282) -/
  | stop
  /-- `JR e` (R264) -/
  | jrE (e : Byte)
  /-- `JR cc,e` (R265) -/
  | jrCcE (cc : Cond) (e : Byte)
  /-- `LD rr,nn` (R162) -/
  | ldRrNn (rr : Reg16) (nn : Word)
  /-- `ADD HL,rr` (R221) -/
  | addHlRr (rr : Reg16)
  /-- `LD (BC),A` (R137) -/
  | ldBcA
  /-- `LD (DE),A` (R138) -/
  | ldDeA
  /-- `LD (HL+),A` (R147) -/
  | ldHliA
  /-- `LD (HL-),A` (R148) -/
  | ldHldA
  /-- `LD A,(BC)` (R135) -/
  | ldABc
  /-- `LD A,(DE)` (R136) -/
  | ldADe
  /-- `LD A,(HL+)` (R145) -/
  | ldAHli
  /-- `LD A,(HL-)` (R146) -/
  | ldAHld
  /-- `INC rr` (R222) -/
  | incRr (rr : Reg16)
  /-- `DEC rr` (R223) -/
  | decRr (rr : Reg16)
  /-- `INC r` (R207) -/
  | incR (r : Reg8)
  /-- `INC (HL)` (R208) -/
  | incHl
  /-- `DEC r` (R209) -/
  | decR (r : Reg8)
  /-- `DEC (HL)` (R210) -/
  | decHl
  /-- `LD r,n` (R131) -/
  | ldRN (r : Reg8) (n : Byte)
  /-- `LD (HL),n` (R134) -/
  | ldHlN (n : Byte)
  /-- `RLCA` (R230) -/
  | rlca
  /-- `RRCA` (R231) -/
  | rrca
  /-- `RLA` (R232) -/
  | rla
  /-- `RRA` (R233) -/
  | rra
  /-- `DAA` (R211) -/
  | daa
  /-- `CPL` (R212) -/
  | cpl
  /-- `SCF` (R213) -/
  | scf
  /-- `CCF` (R214) -/
  | ccf
  /-- `LD r,r'` (R130): destination first -/
  | ldRR (r r' : Reg8)
  /-- `LD r,(HL)` (R132) -/
  | ldRHl (r : Reg8)
  /-- `LD (HL),r` (R133) -/
  | ldHlR (r : Reg8)
  /-- `HALT` (R281) -/
  | halt
  /-- `ADD A,r` (R183) -/
  | addAR (r : Reg8)
  /-- `ADD A,(HL)` (R184) -/
  | addAHl
  /-- `ADD A,n` (R185) -/
  | addAN (n : Byte)
  /-- `ADC A,r` (R186) -/
  | adcAR (r : Reg8)
  /-- `ADC A,(HL)` (R187) -/
  | adcAHl
  /-- `ADC A,n` (R188) -/
  | adcAN (n : Byte)
  /-- `SUB r` (R189) -/
  | subR (r : Reg8)
  /-- `SUB (HL)` (R190) -/
  | subHl
  /-- `SUB n` (R191) -/
  | subN (n : Byte)
  /-- `SBC A,r` (R192) -/
  | sbcAR (r : Reg8)
  /-- `SBC A,(HL)` (R193) -/
  | sbcAHl
  /-- `SBC A,n` (R194) -/
  | sbcAN (n : Byte)
  /-- `AND r` (R195) -/
  | andR (r : Reg8)
  /-- `AND (HL)` (R196) -/
  | andHl
  /-- `AND n` (R197) -/
  | andN (n : Byte)
  /-- `XOR r` (R198) -/
  | xorR (r : Reg8)
  /-- `XOR (HL)` (R199) -/
  | xorHl
  /-- `XOR n` (R200) -/
  | xorN (n : Byte)
  /-- `OR r` (R201) -/
  | orR (r : Reg8)
  /-- `OR (HL)` (R202) -/
  | orHl
  /-- `OR n` (R203) -/
  | orN (n : Byte)
  /-- `CP r` (R204) -/
  | cpR (r : Reg8)
  /-- `CP (HL)` (R205) -/
  | cpHl
  /-- `CP n` (R206) -/
  | cpN (n : Byte)
  /-- `RET cc` (R269) -/
  | retCc (cc : Cond)
  /-- `LDH (n),A` (R144) -/
  | ldhNA (n : Byte)
  /-- `ADD SP,e` (R224) -/
  | addSpE (e : Byte)
  /-- `LDH A,(n)` (R143) -/
  | ldhAN (n : Byte)
  /-- `LD HL,SP+e` (R165) -/
  | ldHlSpE (e : Byte)
  /-- `POP qq` for BC, DE, HL (R168) -/
  | popQq (qq : RegStk)
  /-- `POP AF` (R169) -/
  | popAf
  /-- `RET` (R268) -/
  | ret
  /-- `RETI` (R270) -/
  | reti
  /-- `JP HL` (R263) -/
  | jpHl
  /-- `LD SP,HL` (R164) -/
  | ldSpHl
  /-- `JP cc,nn` (R261) -/
  | jpCcNn (cc : Cond) (nn : Word)
  /-- `LDH (C),A` (R142) -/
  | ldhCA
  /-- `LD (nn),A` (R140) -/
  | ldNnA (nn : Word)
  /-- `LDH A,(C)` (R141) -/
  | ldhAC
  /-- `LD A,(nn)` (R139) -/
  | ldANn (nn : Word)
  /-- `JP nn` (R260) -/
  | jpNn (nn : Word)
  /-- `DI` (R283) -/
  | di
  /-- `EI` (R284) -/
  | ei
  /-- `CALL cc,nn` (R267) -/
  | callCcNn (cc : Cond) (nn : Word)
  /-- `PUSH qq` for BC, DE, HL (R166) -/
  | pushQq (qq : RegStk)
  /-- `PUSH AF` (R167) -/
  | pushAf
  /-- `CALL nn` (R266) -/
  | callNn (nn : Word)
  /-- `RST t` (R271): the target address -/
  | rst (t : Word)
  /-- the illegal opcode 0xD3 (R285) -/
  | illegalD3
  /-- the illegal opcode 0xDB (R285) -/
  | illegalDB
  /-- the illegal opcode 0xDD (R285) -/
  | illegalDD
  /-- the illegal opcode 0xE3 (R285) -/
  | illegalE3
  /-- the illegal opcode 0xE4 (R285) -/
  | illegalE4
  /-- the illegal opcode 0xEB (R285) -/
  | illegalEB
  /-- the illegal opcode 0xEC (R285) -/
  | illegalEC
  /-- the illegal opcode 0xED (R285) -/
  | illegalED
  /-- the illegal opcode 0xF4 (R285) -/
  | illegalF4
  /-- the illegal opcode 0xFC (R285) -/
  | illegalFC
  /-- the illegal opcode 0xFD (R285) -/
  | illegalFD
  /-- `RLC r` (R235) -/
  | rlcR (r : Reg8)
  /-- `RLC (HL)` (R236) -/
  | rlcHl
  /-- `RRC r` (R237) -/
  | rrcR (r : Reg8)
  /-- `RRC (HL)` (R238) -/
  | rrcHl
  /-- `RL r` (R239) -/
  | rlR (r : Reg8)
  /-- `RL (HL)` (R240) -/
  | rlHl
  /-- `RR r` (R241) -/
  | rrR (r : Reg8)
  /-- `RR (HL)` (R242) -/
  | rrHl
  /-- `SLA r` (R243) -/
  | slaR (r : Reg8)
  /-- `SLA (HL)` (R244) -/
  | slaHl
  /-- `SRA r` (R245) -/
  | sraR (r : Reg8)
  /-- `SRA (HL)` (R246) -/
  | sraHl
  /-- `SWAP r` (R247) -/
  | swapR (r : Reg8)
  /-- `SWAP (HL)` (R248) -/
  | swapHl
  /-- `SRL r` (R249) -/
  | srlR (r : Reg8)
  /-- `SRL (HL)` (R250) -/
  | srlHl
  /-- `BIT b,r` (R251) -/
  | bitBR (b : BitVec 3) (r : Reg8)
  /-- `BIT b,(HL)` (R252) -/
  | bitBHl (b : BitVec 3)
  /-- `RES b,r` (R253) -/
  | resBR (b : BitVec 3) (r : Reg8)
  /-- `RES b,(HL)` (R254) -/
  | resBHl (b : BitVec 3)
  /-- `SET b,r` (R255) -/
  | setBR (b : BitVec 3) (r : Reg8)
  /-- `SET b,(HL)` (R256) -/
  | setBHl (b : BitVec 3)
  deriving DecidableEq, Repr

end Sys2Proof
end

