-- ==== Sys2Proof/Machine/Operands.lean ====
section
/-! DEFINITION. The operand forms: register pairs (spec/10_state.md R21), the codes r8, r16, r16stk and cc (spec/30_encoding.md
R104 to R107), and the shared bodies that instructions of one shape use with them. -/

namespace Sys2Proof.Machine

/-! ### Pairs (R21) -/

/-- `BC = B:C` (R21). -/
def State.bc (s : State) : Word := word s.b s.c

/-- `DE = D:E` (R21). -/
def State.de (s : State) : Word := word s.d s.e

/-- `HL = H:L` (R21). -/
def State.hl (s : State) : Word := word s.h s.l

/-- `AF = A:F`, as `PUSH AF` pushes it, `A : (F & 0xF0)` (R21, R167). -/
def State.af (s : State) : Word := word s.a (s.f &&& 0xF0)

/-- `BC <- v` (R21). -/
def State.setBc (s : State) (v : Word) : State := { s with b := hiByte v, c := loByte v }

/-- `DE <- v` (R21). -/
def State.setDe (s : State) (v : Word) : State := { s with d := hiByte v, e := loByte v }

/-- `HL <- v` (R21). -/
def State.setHl (s : State) (v : Word) : State := { s with h := hiByte v, l := loByte v }

/-- `AF <- v`: `A <- v[15:8]` and `F <- v[7:0] & 0xF0` (R21, R169). -/
def State.setAf (s : State) (v : Word) : State := { s with a := hiByte v, f := loByte v &&& 0xF0 }

/-! ### Operand codes -/

/-- `r8[i]` for a register code (R104, R105). -/
def State.r8 (s : State) : Reg8 → Byte
  | .b => s.b
  | .c => s.c
  | .d => s.d
  | .e => s.e
  | .h => s.h
  | .l => s.l
  | .a => s.a

/-- `r8[i] <- v` for a register code (R104, R105). -/
def State.setR8 (s : State) (r : Reg8) (v : Byte) : State :=
  match r with
  | .b => { s with b := v }
  | .c => { s with c := v }
  | .d => { s with d := v }
  | .e => { s with e := v }
  | .h => { s with h := v }
  | .l => { s with l := v }
  | .a => { s with a := v }

/-- `r16[p]` (R106). -/
def State.r16 (s : State) : Reg16 → Word
  | .bc => s.bc
  | .de => s.de
  | .hl => s.hl
  | .sp => s.sp

/-- `r16[p] <- v` (R106). -/
def State.setR16 (s : State) (rr : Reg16) (v : Word) : State :=
  match rr with
  | .bc => s.setBc v
  | .de => s.setDe v
  | .hl => s.setHl v
  | .sp => { s with sp := v }

/-- `r16stk[p]` (R106). -/
def State.stk (s : State) : RegStk → Word
  | .bc => s.bc
  | .de => s.de
  | .hl => s.hl
  | .af => s.af

/-- `r16stk[p] <- v` (R106). -/
def State.setStk (s : State) (qq : RegStk) (v : Word) : State :=
  match qq with
  | .bc => s.setBc v
  | .de => s.setDe v
  | .hl => s.setHl v
  | .af => s.setAf v

/-- `cond(cc)` (R107). -/
def State.cond (s : State) : Cond → Bool
  | .nz => !s.flagZ
  | .z => s.flagZ
  | .nc => !s.flagC
  | .c => s.flagC

/-- `0xFF00 + n`, the page of `LDH` (R112, R141). -/
def highPage (n : Byte) : Word := 0xFF00 + zext16 n

/-! ### Shared bodies -/

/-- What a meaning answers. -/
abbrev Result := Host.Outcome State Fault Refusal

/-- `(A, Z, N, H, C) <- out`. -/
def State.setAcc (s : State) (o : AluOut) : State := { s.setFlags o.z o.n o.h o.c with a := o.r }

/-- `(_, Z, N, H, C) <- out`: the flags without the result. -/
def State.setFlagsOf (s : State) (o : AluOut) : State := s.setFlags o.z o.n o.h o.c

/-- `(r8[i], Z, N, H, C) <- out`. -/
def State.setR8Alu (s : State) (r : Reg8) (o : AluOut) : State := (s.setFlags o.z o.n o.h o.c).setR8 r o.r

/-- `A <- MemRead(addr, 1)`. -/
def loadA (addr : Word) (s : State) : Result :=
  (memRead addr s).finish fun v s1 => { s1 with a := v }

/-- An accumulator operation on the byte at HL: the read, then `(A, flags) <- op(A, v)`. -/
def accHl (op : Byte → State → AluOut) (s : State) : Result :=
  (memRead s.hl s).finish fun v s1 => s1.setAcc (op v s1)

/-- A read-modify-write of the byte at HL that sets flags: "the read and the write as two separate cycle events" (R208). -/
def rmwHl (op : Byte → State → AluOut) (s : State) : Result :=
  (memRead s.hl s).finish fun v s1 =>
    (memWrite s1.hl (op v s1).r s1).setFlagsOf (op v s1)

/-- A CB-page rotate or shift as a result with flags: Z from the result, N = H = 0 (R234). -/
def rotAlu (f : RotFn) (v : Byte) (s : State) : AluOut :=
  let o := f s.flagC v
  { r := o.r, z := o.r == 0, n := false, h := false, c := o.c }

/-- An accumulator rotate: as the CB-page one, but Z = 0 (R230 to R233). -/
def rotA (f : RotFn) (s : State) : State :=
  let o := f s.flagC s.a
  { s.setFlags false false false o.c with a := o.r }

/-- The flags of `BIT b`: Z = 1 - v[b], N = 0, H = 1, C unchanged (R251). -/
def State.setBitFlags (s : State) (b : BitVec 3) (v : Byte) : State :=
  s.setFlags (!v.getLsbD b.toNat) false true s.flagC

/-- `v & ~(1 << b)` (R253). -/
def resBit (b : BitVec 3) (v : Byte) : Byte := v &&& ~~~bitMask b

/-- `v | (1 << b)` (R255). -/
def setBit (b : BitVec 3) (v : Byte) : Byte := v ||| bitMask b

/-- A read-modify-write of the byte at HL that sets no flag (R254, R256). -/
def updateHl (f : Byte → Byte) (s : State) : Result :=
  (memRead s.hl s).finish fun v s1 => memWrite s1.hl (f v) s1

/-- A taken `JP` or `JR` to `target` (R260, R264) with the self-jump check of R262. -/
def jumpTo (target : Word) (s : State) : State :=
  if s.cfg.selfJumpCheck && target == s.opaddr then raiseFault .selfJump s.opaddr s
  else internal { s with pc := target }

/-- The target of `JR e`: the address of the next instruction plus the signed displacement (R264). -/
def relTarget (e : Byte) (s : State) : Word := s.pc + sext16 e

/-- A taken call: one internal M-cycle, push of the return address, jump (R266, R271). -/
def callTo (target : Word) (s : State) : State :=
  let s1 := internal s
  { push16 s1.pc s1 with pc := target }

/-- A taken return (R268, R269). -/
def doReturn (s : State) : Result :=
  (pop16 s).finish fun v s1 => internal { s1 with pc := v }

/-- `raise Fault(IllegalOpcode, op, opaddr)` (R282, R285, R321). -/
def raiseIllegal (op : Byte) (s : State) : Result :=
  .next { s with faulted := some { kind := .illegalOpcode, op := some op, addr := s.opaddr } }

end Sys2Proof.Machine
end

