-- ==== Sys2Proof/Machine/Alu16.lean ====
section
/-! DEFINITION. The 16-bit arithmetic instructions (spec/43_alu16.md). -/

namespace Sys2Proof.Machine

/-- `ADD HL,rr` (R221): Z is not modified. -/
def execAddHlRr (rr : Reg16) (s : State) : Result :=
  let o := add16 s.hl (s.r16 rr)
  .next (internal ((s.setFlags s.flagZ false o.h o.c).setHl o.r))

/-- `INC rr` (R222): no flag. -/
def execIncRr (rr : Reg16) (s : State) : Result := .next (internal (s.setR16 rr (s.r16 rr + 1)))

/-- `DEC rr` (R223): no flag. -/
def execDecRr (rr : Reg16) (s : State) : Result := .next (internal (s.setR16 rr (s.r16 rr - 1)))

/-- `ADD SP,e` (R224): Z = N = 0, H and C from the low byte (R220); `sp` is written after two internal M-cycles. -/
def execAddSpE (e : Byte) (s : State) : Result :=
  let o := addSp s.sp e
  .next { internal (internal (s.setFlags false false o.h o.c)) with sp := o.r }

end Sys2Proof.Machine
end

