-- ==== Sys2Proof/Machine/Alu8.lean ====
section
/-! DEFINITION. The 8-bit arithmetic and logic instructions (spec/42_alu8.md). -/

namespace Sys2Proof.Machine

/-- `ADD A,r` (R183). -/
def execAddAR (r : Reg8) (s : State) : Result := .next (s.setAcc (add8 s.a (s.r8 r) false))

/-- `ADD A,(HL)` (R184). -/
def execAddAHl (s : State) : Result := accHl (fun v s1 => add8 s1.a v false) s

/-- `ADD A,n` (R185). -/
def execAddAN (n : Byte) (s : State) : Result := .next (s.setAcc (add8 s.a n false))

/-- `ADC A,r` (R186). -/
def execAdcAR (r : Reg8) (s : State) : Result := .next (s.setAcc (add8 s.a (s.r8 r) s.flagC))

/-- `ADC A,(HL)` (R187). -/
def execAdcAHl (s : State) : Result := accHl (fun v s1 => add8 s1.a v s1.flagC) s

/-- `ADC A,n` (R188). -/
def execAdcAN (n : Byte) (s : State) : Result := .next (s.setAcc (add8 s.a n s.flagC))

/-- `SUB r` (R189). -/
def execSubR (r : Reg8) (s : State) : Result := .next (s.setAcc (sub8 s.a (s.r8 r) false))

/-- `SUB (HL)` (R190). -/
def execSubHl (s : State) : Result := accHl (fun v s1 => sub8 s1.a v false) s

/-- `SUB n` (R191). -/
def execSubN (n : Byte) (s : State) : Result := .next (s.setAcc (sub8 s.a n false))

/-- `SBC A,r` (R192). -/
def execSbcAR (r : Reg8) (s : State) : Result := .next (s.setAcc (sub8 s.a (s.r8 r) s.flagC))

/-- `SBC A,(HL)` (R193). -/
def execSbcAHl (s : State) : Result := accHl (fun v s1 => sub8 s1.a v s1.flagC) s

/-- `SBC A,n` (R194). -/
def execSbcAN (n : Byte) (s : State) : Result := .next (s.setAcc (sub8 s.a n s.flagC))

/-- `AND r` (R195). -/
def execAndR (r : Reg8) (s : State) : Result := .next (s.setAcc (and8 s.a (s.r8 r)))

/-- `AND (HL)` (R196). -/
def execAndHl (s : State) : Result := accHl (fun v s1 => and8 s1.a v) s

/-- `AND n` (R197). -/
def execAndN (n : Byte) (s : State) : Result := .next (s.setAcc (and8 s.a n))

/-- `XOR r` (R198). -/
def execXorR (r : Reg8) (s : State) : Result := .next (s.setAcc (xor8 s.a (s.r8 r)))

/-- `XOR (HL)` (R199). -/
def execXorHl (s : State) : Result := accHl (fun v s1 => xor8 s1.a v) s

/-- `XOR n` (R200). -/
def execXorN (n : Byte) (s : State) : Result := .next (s.setAcc (xor8 s.a n))

/-- `OR r` (R201). -/
def execOrR (r : Reg8) (s : State) : Result := .next (s.setAcc (or8 s.a (s.r8 r)))

/-- `OR (HL)` (R202). -/
def execOrHl (s : State) : Result := accHl (fun v s1 => or8 s1.a v) s

/-- `OR n` (R203). -/
def execOrN (n : Byte) (s : State) : Result := .next (s.setAcc (or8 s.a n))

/-- `CP r` (R204): A is not written. -/
def execCpR (r : Reg8) (s : State) : Result := .next (s.setFlagsOf (sub8 s.a (s.r8 r) false))

/-- `CP (HL)` (R205): A is not written. -/
def execCpHl (s : State) : Result := (memRead s.hl s).finish fun v s1 => s1.setFlagsOf (sub8 s1.a v false)

/-- `CP n` (R206): A is not written. -/
def execCpN (n : Byte) (s : State) : Result := .next (s.setFlagsOf (sub8 s.a n false))

/-- `INC r` (R207). -/
def execIncR (r : Reg8) (s : State) : Result := .next (s.setR8Alu r (inc8 (s.r8 r) s.flagC))

/-- `INC (HL)` (R208): the read and the write are two M-cycles. -/
def execIncHl (s : State) : Result := rmwHl (fun v s1 => inc8 v s1.flagC) s

/-- `DEC r` (R209). -/
def execDecR (r : Reg8) (s : State) : Result := .next (s.setR8Alu r (dec8 (s.r8 r) s.flagC))

/-- `DEC (HL)` (R210). -/
def execDecHl (s : State) : Result := rmwHl (fun v s1 => dec8 v s1.flagC) s

/-- `DAA` (R211). -/
def execDaa (s : State) : Result := .next (s.setAcc (daa8 s.a s.flagN s.flagH s.flagC))

/-- `CPL` (R212): N = H = 1, Z and C unchanged. -/
def execCpl (s : State) : Result := .next { s.setFlags s.flagZ true true s.flagC with a := ~~~s.a }

/-- `SCF` (R213): C = 1, N = H = 0, Z unchanged. -/
def execScf (s : State) : Result := .next (s.setFlags s.flagZ false false true)

/-- `CCF` (R214): C inverted, N = H = 0, Z unchanged. -/
def execCcf (s : State) : Result := .next (s.setFlags s.flagZ false false (!s.flagC))

end Sys2Proof.Machine
end

