-- ==== Sys2Proof/Machine/Control.lean ====
section
/-! DEFINITION. The control transfers (spec/45_control.md). `pc` points past the bytes fetched (R272). -/

namespace Sys2Proof.Machine

/-- `JP nn` (R260). -/
def execJpNn (nn : Word) (s : State) : Result := .next (jumpTo nn s)

/-- `JP cc,nn` (R261): not taken, nothing but the operand fetches has happened. -/
def execJpCcNn (cc : Cond) (nn : Word) (s : State) : Result := if s.cond cc then .next (jumpTo nn s) else .next s

/-- `JP HL` (R263): no memory is read, no further M-cycle, no self-jump check. -/
def execJpHl (s : State) : Result := .next { s with pc := s.hl }

/-- `JR e` (R264). -/
def execJrE (e : Byte) (s : State) : Result := .next (jumpTo (relTarget e s) s)

/-- `JR cc,e` (R265). -/
def execJrCcE (cc : Cond) (e : Byte) (s : State) : Result := if s.cond cc then .next (jumpTo (relTarget e s) s) else .next s

/-- `CALL nn` (R266). -/
def execCallNn (nn : Word) (s : State) : Result := .next (callTo nn s)

/-- `CALL cc,nn` (R267). -/
def execCallCcNn (cc : Cond) (nn : Word) (s : State) : Result := if s.cond cc then .next (callTo nn s) else .next s

/-- `RET` (R268). -/
def execRet (s : State) : Result := doReturn s

/-- `RET cc` (R269): one internal M-cycle before the condition is used. -/
def execRetCc (cc : Cond) (s : State) : Result :=
  let s1 := internal s
  if s1.cond cc then doReturn s1 else .next s1

/-- `RETI` (R270): IME is set at once; `enableInterruptsDelay` is not touched. -/
def execReti (s : State) : Result := returnFromInterrupt s

/-- `RST t` (R271): the pushed `pc` is the opcode address + 1. -/
def execRst (t : Word) (s : State) : Result := .next (callTo t s)

end Sys2Proof.Machine
end

