-- ==== Sys2Proof/Machine/Load16.lean ====
section
/-! DEFINITION. The 16-bit loads, PUSH and POP (spec/41_load16_stack.md). -/

namespace Sys2Proof.Machine

/-- `LD rr,nn` (R162). -/
def execLdRrNn (rr : Reg16) (nn : Word) (s : State) : Result := .next (s.setR16 rr nn)

/-- `LD (nn),SP` (R163). -/
def execLdNnSp (nn : Word) (s : State) : Result := .next (memWrite16 nn s.sp s)

/-- `LD SP,HL` (R164). -/
def execLdSpHl (s : State) : Result := .next (internal { s with sp := s.hl })

/-- `LD HL,SP+e` (R165): `sp` is not changed; Z = N = 0, H and C from the low byte (R220). -/
def execLdHlSpE (e : Byte) (s : State) : Result :=
  let o := addSp s.sp e
  .next (internal ((s.setFlags false false o.h o.c).setHl o.r))

/-- `PUSH qq` (R166). -/
def execPushQq (qq : RegStk) (s : State) : Result :=
  let s1 := internal s
  .next (push16 (s1.stk qq) s1)

/-- `PUSH AF` (R167): F is pushed masked with 0xF0. -/
def execPushAf (s : State) : Result :=
  let s1 := internal s
  .next (push16 s1.af s1)

/-- `POP qq` (R168). -/
def execPopQq (qq : RegStk) (s : State) : Result := (pop16 s).finish fun v s1 => s1.setStk qq v

/-- `POP AF` (R169): F takes the popped low byte masked with 0xF0. -/
def execPopAf (s : State) : Result := (pop16 s).finish fun v s1 => s1.setAf v

end Sys2Proof.Machine
end

