-- ==== Sys2Proof/Machine/Load8.lean ====
section
/-! DEFINITION. The 8-bit loads (spec/40_load8.md). The opcode and operand bytes are already fetched. -/

namespace Sys2Proof.Machine

/-- `LD r,r'` (R130). -/
def execLdRR (r r' : Reg8) (s : State) : Result := .next (s.setR8 r (s.r8 r'))

/-- `LD r,n` (R131). -/
def execLdRN (r : Reg8) (n : Byte) (s : State) : Result := .next (s.setR8 r n)

/-- `LD r,(HL)` (R132): H and L are read for the address before they can be written. -/
def execLdRHl (r : Reg8) (s : State) : Result := (memRead s.hl s).finish fun v s1 => s1.setR8 r v

/-- `LD (HL),r` (R133). -/
def execLdHlR (r : Reg8) (s : State) : Result := .next (memWrite s.hl (s.r8 r) s)

/-- `LD (HL),n` (R134). -/
def execLdHlN (n : Byte) (s : State) : Result := .next (memWrite s.hl n s)

/-- `LD A,(BC)` (R135). -/
def execLdABc (s : State) : Result := loadA s.bc s

/-- `LD A,(DE)` (R136). -/
def execLdADe (s : State) : Result := loadA s.de s

/-- `LD (BC),A` (R137). -/
def execLdBcA (s : State) : Result := .next (memWrite s.bc s.a s)

/-- `LD (DE),A` (R138). -/
def execLdDeA (s : State) : Result := .next (memWrite s.de s.a s)

/-- `LD A,(nn)` (R139). -/
def execLdANn (nn : Word) (s : State) : Result := loadA nn s

/-- `LD (nn),A` (R140). -/
def execLdNnA (nn : Word) (s : State) : Result := .next (memWrite nn s.a s)

/-- `LDH A,(C)` (R141). -/
def execLdhAC (s : State) : Result := loadA (highPage s.c) s

/-- `LDH (C),A` (R142). -/
def execLdhCA (s : State) : Result := .next (memWrite (highPage s.c) s.a s)

/-- `LDH A,(n)` (R143). -/
def execLdhAN (n : Byte) (s : State) : Result := loadA (highPage n) s

/-- `LDH (n),A` (R144). -/
def execLdhNA (n : Byte) (s : State) : Result := .next (memWrite (highPage n) s.a s)

/-- `LD A,(HL+)` (R145). -/
def execLdAHli (s : State) : Result := (memRead s.hl s).finish fun v s1 => { s1 with a := v }.setHl (s1.hl + 1)

/-- `LD A,(HL-)` (R146). -/
def execLdAHld (s : State) : Result := (memRead s.hl s).finish fun v s1 => { s1 with a := v }.setHl (s1.hl - 1)

/-- `LD (HL+),A` (R147). -/
def execLdHliA (s : State) : Result :=
  let s1 := memWrite s.hl s.a s
  .next (s1.setHl (s1.hl + 1))

/-- `LD (HL-),A` (R148). -/
def execLdHldA (s : State) : Result :=
  let s1 := memWrite s.hl s.a s
  .next (s1.setHl (s1.hl - 1))

end Sys2Proof.Machine
end

