-- ==== Sys2Proof/Machine/Rotate.lean ====
section
/-! DEFINITION. The rotates, shifts, SWAP and the bit instructions (spec/44_rotate_shift_bit.md). -/

namespace Sys2Proof.Machine

/-- `RLCA` (R230): Z = 0. -/
def execRlca (s : State) : Result := .next (rotA rlc8 s)

/-- `RRCA` (R231): Z = 0. -/
def execRrca (s : State) : Result := .next (rotA rrc8 s)

/-- `RLA` (R232): Z = 0. -/
def execRla (s : State) : Result := .next (rotA rl8 s)

/-- `RRA` (R233): Z = 0. -/
def execRra (s : State) : Result := .next (rotA rr8 s)

/-- `RLC r` (R235). -/
def execRlcR (r : Reg8) (s : State) : Result := .next (s.setR8Alu r (rotAlu rlc8 (s.r8 r) s))

/-- `RLC (HL)` (R236). -/
def execRlcHl (s : State) : Result := rmwHl (rotAlu rlc8) s

/-- `RRC r` (R237). -/
def execRrcR (r : Reg8) (s : State) : Result := .next (s.setR8Alu r (rotAlu rrc8 (s.r8 r) s))

/-- `RRC (HL)` (R238). -/
def execRrcHl (s : State) : Result := rmwHl (rotAlu rrc8) s

/-- `RL r` (R239). -/
def execRlR (r : Reg8) (s : State) : Result := .next (s.setR8Alu r (rotAlu rl8 (s.r8 r) s))

/-- `RL (HL)` (R240). -/
def execRlHl (s : State) : Result := rmwHl (rotAlu rl8) s

/-- `RR r` (R241). -/
def execRrR (r : Reg8) (s : State) : Result := .next (s.setR8Alu r (rotAlu rr8 (s.r8 r) s))

/-- `RR (HL)` (R242). -/
def execRrHl (s : State) : Result := rmwHl (rotAlu rr8) s

/-- `SLA r` (R243). -/
def execSlaR (r : Reg8) (s : State) : Result := .next (s.setR8Alu r (rotAlu sla8 (s.r8 r) s))

/-- `SLA (HL)` (R244). -/
def execSlaHl (s : State) : Result := rmwHl (rotAlu sla8) s

/-- `SRA r` (R245). -/
def execSraR (r : Reg8) (s : State) : Result := .next (s.setR8Alu r (rotAlu sra8 (s.r8 r) s))

/-- `SRA (HL)` (R246). -/
def execSraHl (s : State) : Result := rmwHl (rotAlu sra8) s

/-- `SWAP r` (R247). -/
def execSwapR (r : Reg8) (s : State) : Result := .next (s.setR8Alu r (rotAlu swap8 (s.r8 r) s))

/-- `SWAP (HL)` (R248). -/
def execSwapHl (s : State) : Result := rmwHl (rotAlu swap8) s

/-- `SRL r` (R249). -/
def execSrlR (r : Reg8) (s : State) : Result := .next (s.setR8Alu r (rotAlu srl8 (s.r8 r) s))

/-- `SRL (HL)` (R250). -/
def execSrlHl (s : State) : Result := rmwHl (rotAlu srl8) s

/-- `BIT b,r` (R251). -/
def execBitBR (b : BitVec 3) (r : Reg8) (s : State) : Result := .next (s.setBitFlags b (s.r8 r))

/-- `BIT b,(HL)` (R252): nothing is written to memory. -/
def execBitBHl (b : BitVec 3) (s : State) : Result := (memRead s.hl s).finish fun v s1 => s1.setBitFlags b v

/-- `RES b,r` (R253): no flag. -/
def execResBR (b : BitVec 3) (r : Reg8) (s : State) : Result := .next (s.setR8 r (resBit b (s.r8 r)))

/-- `RES b,(HL)` (R254): no flag. -/
def execResBHl (b : BitVec 3) (s : State) : Result := updateHl (resBit b) s

/-- `SET b,r` (R255): no flag. -/
def execSetBR (b : BitVec 3) (r : Reg8) (s : State) : Result := .next (s.setR8 r (setBit b (s.r8 r)))

/-- `SET b,(HL)` (R256): no flag. -/
def execSetBHl (b : BitVec 3) (s : State) : Result := updateHl (setBit b) s

end Sys2Proof.Machine
end

