-- ==== Sys2Proof/Machine/System.lean ====
section
/-! DEFINITION. NOP, HALT, STOP, DI, EI and the illegal opcodes (spec/46_system.md). -/

namespace Sys2Proof.Machine

/-- `NOP` (R280). -/
def execNop (s : State) : Result := .next s

/-- `HALT` (R281): the halt bug when IME = 0 and an enabled source is pending, else the CPU halts. -/
def execHalt (s : State) : Result :=
  if !s.ime && pending s != 0 then .next { s with haltBug := true } else .next { s with halted := true }

/-- `STOP` (R282): not implemented by this engine; `raise Fault(IllegalOpcode, 0x10, opaddr)`. -/
def execStop (s : State) : Result := raiseIllegal 0x10 s

/-- `DI` (R283): effective at once. -/
def execDi (s : State) : Result := .next { s with ime := false }

/-- `EI` (R284): IME is written by the deferred enable of the next step (R302), not here. -/
def execEi (s : State) : Result := .next { s with eiDelay := true }

/-- The illegal opcode 0xD3 (R285). -/
def execIllegalD3 (s : State) : Result := raiseIllegal 0xD3 s

/-- The illegal opcode 0xDB (R285). -/
def execIllegalDB (s : State) : Result := raiseIllegal 0xDB s

/-- The illegal opcode 0xDD (R285). -/
def execIllegalDD (s : State) : Result := raiseIllegal 0xDD s

/-- The illegal opcode 0xE3 (R285). -/
def execIllegalE3 (s : State) : Result := raiseIllegal 0xE3 s

/-- The illegal opcode 0xE4 (R285). -/
def execIllegalE4 (s : State) : Result := raiseIllegal 0xE4 s

/-- The illegal opcode 0xEB (R285). -/
def execIllegalEB (s : State) : Result := raiseIllegal 0xEB s

/-- The illegal opcode 0xEC (R285). -/
def execIllegalEC (s : State) : Result := raiseIllegal 0xEC s

/-- The illegal opcode 0xED (R285). -/
def execIllegalED (s : State) : Result := raiseIllegal 0xED s

/-- The illegal opcode 0xF4 (R285). -/
def execIllegalF4 (s : State) : Result := raiseIllegal 0xF4 s

/-- The illegal opcode 0xFC (R285). -/
def execIllegalFC (s : State) : Result := raiseIllegal 0xFC s

/-- The illegal opcode 0xFD (R285). -/
def execIllegalFD (s : State) : Result := raiseIllegal 0xFD s

end Sys2Proof.Machine
end

