-- ==== Sys2Proof/WellFormed.lean ====
section
/-! DEFINITION. Which terms of `Instr` are instructions: the operands an encoding can hold. The operand types rule out the
rest (a register code is never 6, a bit number is 0..7). -/

namespace Sys2Proof

/-- The eight targets `8 * y` of `RST` (spec/30_encoding.md R119). -/
def RstTarget (t : Word) : Prop := t.toNat % 8 = 0 ∧ t.toNat ≤ 0x38

/-- `PUSH qq` and `POP qq` name BC, DE or HL: code 3 is `PUSH AF`, `POP AF` (spec/41_load16_stack.md R166, R168). -/
def StackPair (qq : RegStk) : Prop := qq ≠ .af

/-- The instruction is one that some encoding of spec/30_encoding.md R108 and R110 stands for. -/
def Instr.WellFormed : Instr → Prop
  | .rst t => RstTarget t
  | .pushQq qq => StackPair qq
  | .popQq qq => StackPair qq
  | _ => True

/-- `Instr.WellFormed`, decided. -/
def Instr.wellFormed : Instr → Bool
  | .rst t => t.toNat % 8 == 0 && t.toNat ≤ 0x38
  | .pushQq qq => qq != .af
  | .popQq qq => qq != .af
  | _ => true

theorem Instr.wellFormed_iff (i : Instr) : i.wellFormed = true ↔ i.WellFormed := by
  cases i <;> simp [Instr.wellFormed, Instr.WellFormed, RstTarget, StackPair]

end Sys2Proof
end

