-- ==== Sys2Proof/Decode.lean ====
section
/-! DEFINITION. The decoder of the base page (spec/30_encoding.md R108) and of the CB page (R110), total on any bytes, and
after it the encoder, written from the patterns of the instruction rules ("Encoding" lines of spec/40 to spec/46, R111, R116). -/

namespace Sys2Proof
open Machine

/-! ### Operand codes -/

/-- The operand of a 3-bit code (R104): the register's form, or for code 6 the form for the byte at HL. -/
def r8Case {α : Type} (code : Nat) (onReg : Reg8 → α) (onHl : α) : α :=
  match code with
  | 0 => onReg .b
  | 1 => onReg .c
  | 2 => onReg .d
  | 3 => onReg .e
  | 4 => onReg .h
  | 5 => onReg .l
  | 6 => onHl
  | _ => onReg .a

/-- `r16[p]` (R106). -/
def r16Of (p : Nat) : Reg16 :=
  match p with
  | 0 => .bc
  | 1 => .de
  | 2 => .hl
  | _ => .sp

/-- `cond(cc)` by its code (R107). -/
def condOf (cc : Nat) : Cond :=
  match cc with
  | 0 => .nz
  | 1 => .z
  | 2 => .nc
  | _ => .c

/-! ### The base page -/

/-- What a first byte asks for (R100, R115): nothing more, one operand byte, two operand bytes, or the second byte of the CB
page. -/
inductive Shape where
  | op (i : Instr)
  | n (k : Byte → Instr)
  | nn (k : Word → Instr)
  | cb

/-- `alu[y] A,r[z]` (R108, x = 2). -/
def decodeAluOperand (y z : Nat) : Instr :=
  match y with
  | 0 => r8Case z .addAR .addAHl
  | 1 => r8Case z .adcAR .adcAHl
  | 2 => r8Case z .subR .subHl
  | 3 => r8Case z .sbcAR .sbcAHl
  | 4 => r8Case z .andR .andHl
  | 5 => r8Case z .xorR .xorHl
  | 6 => r8Case z .orR .orHl
  | _ => r8Case z .cpR .cpHl

/-- `alu[y] A,n` (R108, x = 3, z = 6). -/
def decodeAluImmediate (y : Nat) : Byte → Instr :=
  match y with
  | 0 => .addAN
  | 1 => .adcAN
  | 2 => .subN
  | 3 => .sbcAN
  | 4 => .andN
  | 5 => .xorN
  | 6 => .orN
  | _ => .cpN

/-- R108, x = 0. -/
def decodeX0 (y z p q : Nat) : Shape :=
  match z with
  | 0 =>
    match y with
    | 0 => .op .nop
    | 1 => .nn .ldNnSp
    | 2 => .op .stop
    | 3 => .n .jrE
    | _ => .n (.jrCcE (condOf (y - 4)))
  | 1 => if q = 0 then .nn (.ldRrNn (r16Of p)) else .op (.addHlRr (r16Of p))
  | 2 =>
    match y with
    | 0 => .op .ldBcA
    | 1 => .op .ldABc
    | 2 => .op .ldDeA
    | 3 => .op .ldADe
    | 4 => .op .ldHliA
    | 5 => .op .ldAHli
    | 6 => .op .ldHldA
    | _ => .op .ldAHld
  | 3 => if q = 0 then .op (.incRr (r16Of p)) else .op (.decRr (r16Of p))
  | 4 => .op (r8Case y .incR .incHl)
  | 5 => .op (r8Case y .decR .decHl)
  | 6 => .n (r8Case y .ldRN .ldHlN)
  | _ =>
    match y with
    | 0 => .op .rlca
    | 1 => .op .rrca
    | 2 => .op .rla
    | 3 => .op .rra
    | 4 => .op .daa
    | 5 => .op .cpl
    | 6 => .op .scf
    | _ => .op .ccf

/-- R108, x = 1: the `LD r,r'` block with HALT in its (HL),(HL) slot. -/
def decodeX1 (y z : Nat) : Instr :=
  r8Case y (fun r => r8Case z (.ldRR r) (.ldRHl r)) (r8Case z .ldHlR .halt)

/-- R108, x = 3, and the illegal bytes of R113. -/
def decodeX3 (y z p q : Nat) : Shape :=
  match z with
  | 0 =>
    match y with
    | 4 => .n .ldhNA
    | 5 => .n .addSpE
    | 6 => .n .ldhAN
    | 7 => .n .ldHlSpE
    | _ => .op (.retCc (condOf y))
  | 1 =>
    if q = 0 then
      match p with
      | 0 => .op (.popQq .bc)
      | 1 => .op (.popQq .de)
      | 2 => .op (.popQq .hl)
      | _ => .op .popAf
    else
      match p with
      | 0 => .op .ret
      | 1 => .op .reti
      | 2 => .op .jpHl
      | _ => .op .ldSpHl
  | 2 =>
    match y with
    | 4 => .op .ldhCA
    | 5 => .nn .ldNnA
    | 6 => .op .ldhAC
    | 7 => .nn .ldANn
    | _ => .nn (.jpCcNn (condOf y))
  | 3 =>
    match y with
    | 0 => .nn .jpNn
    | 1 => .cb
    | 2 => .op .illegalD3
    | 3 => .op .illegalDB
    | 4 => .op .illegalE3
    | 5 => .op .illegalEB
    | 6 => .op .di
    | _ => .op .ei
  | 4 =>
    match y with
    | 4 => .op .illegalE4
    | 5 => .op .illegalEC
    | 6 => .op .illegalF4
    | 7 => .op .illegalFC
    | _ => .nn (.callCcNn (condOf y))
  | 5 =>
    if q = 0 then
      match p with
      | 0 => .op (.pushQq .bc)
      | 1 => .op (.pushQq .de)
      | 2 => .op (.pushQq .hl)
      | _ => .op .pushAf
    else
      match p with
      | 0 => .nn .callNn
      | 1 => .op .illegalDD
      | 2 => .op .illegalED
      | _ => .op .illegalFD
  | 6 => .n (decodeAluImmediate y)
  | _ => .op (.rst (BitVec.ofNat 16 (8 * y)))

/-- The base page, from the fields x, y, z, p, q of the first byte (R100, R108). -/
def decodeBase (op : Byte) : Shape :=
  let y := field op 3 3
  let z := field op 0 3
  let p := field op 4 2
  let q := field op 3 1
  match field op 6 2 with
  | 0 => decodeX0 y z p q
  | 1 => .op (decodeX1 y z)
  | 2 => .op (decodeAluOperand y z)
  | _ => decodeX3 y z p q

/-! ### The CB page -/

/-- The CB page, from the fields of the second byte (R110). -/
def decodeCb (op2 : Byte) : Instr :=
  let y := field op2 3 3
  let z := field op2 0 3
  let b : BitVec 3 := op2.extractLsb' 3 3
  match field op2 6 2 with
  | 0 =>
    match y with
    | 0 => r8Case z .rlcR .rlcHl
    | 1 => r8Case z .rrcR .rrcHl
    | 2 => r8Case z .rlR .rlHl
    | 3 => r8Case z .rrR .rrHl
    | 4 => r8Case z .slaR .slaHl
    | 5 => r8Case z .sraR .sraHl
    | 6 => r8Case z .swapR .swapHl
    | _ => r8Case z .srlR .srlHl
  | 1 => r8Case z (.bitBR b) (.bitBHl b)
  | 2 => r8Case z (.resBR b) (.resBHl b)
  | _ => r8Case z (.setBR b) (.setBHl b)

/-! ### Byte streams -/

/-- Why a byte list is no instruction. Every first byte decodes (R113, R114), so the one reason is that bytes are missing. -/
inductive DecodeError where
  | truncated
  deriving DecidableEq, Repr

/-- The instruction at the head of a byte list, and the bytes after it. The first byte decides the length (R115); a 16-bit
immediate has its low byte first (R103). -/
def decode (bytes : List Byte) : Except DecodeError (Instr × List Byte) :=
  match bytes with
  | [] => .error .truncated
  | op :: rest =>
    match decodeBase op, rest with
    | .op i, _ => .ok (i, rest)
    | .n k, n :: rest' => .ok (k n, rest')
    | .nn k, lo :: hi :: rest' => .ok (k (word hi lo), rest')
    | .cb, op2 :: rest' => .ok (decodeCb op2, rest')
    | _, _ => .error .truncated

/-- The bytes of a row's number. The table numbers a row as a 24-bit number in stream order, first byte in bits 23..16 (R120);
in general the first byte is the most significant of the `nbits`. -/
def tableBytes (nbits w : Nat) : List Byte :=
  let v := if nbits ≤ 24 then w <<< (24 - nbits) else w >>> (nbits - 24)
  [BitVec.ofNat 8 (v >>> 16), BitVec.ofNat 8 (v >>> 8), BitVec.ofNat 8 v]

/-- The instruction the decoder reads from a row's number. -/
def decodeTableWord (nbits w : Nat) : Option Instr :=
  match decode (tableBytes nbits w) with
  | .ok (i, _) => some i
  | .error _ => none

/-! ### The encoder -/

/-- The 3-bit operand code (R104). -/
def Reg8.code : Reg8 → Byte
  | .b => 0 | .c => 1 | .d => 2 | .e => 3 | .h => 4 | .l => 5 | .a => 7

/-- The 2-bit pair code, `r16` column (R106). -/
def Reg16.code : Reg16 → Byte
  | .bc => 0 | .de => 1 | .hl => 2 | .sp => 3

/-- The 2-bit pair code, `r16stk` column (R106). -/
def RegStk.code : RegStk → Byte
  | .bc => 0 | .de => 1 | .hl => 2 | .af => 3

/-- The 2-bit condition code (R107). -/
def Cond.code : Cond → Byte
  | .nz => 0 | .z => 1 | .nc => 2 | .c => 3

/-- A pattern with a register code in the field `y` or with a bit number there (bits 5..3). -/
def withY (base code : Byte) : Byte := base ||| (code <<< 3)

/-- A pattern with a register code in the field `z` (bits 2..0). -/
def withZ (base code : Byte) : Byte := base ||| code

/-- A pattern with a pair code in the field `p` (bits 5..4). -/
def withP (base code : Byte) : Byte := base ||| (code <<< 4)

/-- The format `OP_NN` (R100). -/
def withNn (op : Byte) (nn : Word) : List Byte := [op, loByte nn, hiByte nn]

/-- The bytes of an instruction. -/
def encode : Instr → List Byte
  | .nop => [0x00]
  | .ldNnSp nn => withNn 0x08 nn
  | .stop => [0x10]
  | .jrE e => [0x18, e]
  | .jrCcE cc e => [withY 0x20 cc.code, e]
  | .ldRrNn rr nn => withNn (withP 0x01 rr.code) nn
  | .addHlRr rr => [withP 0x09 rr.code]
  | .ldBcA => [0x02]
  | .ldDeA => [0x12]
  | .ldHliA => [0x22]
  | .ldHldA => [0x32]
  | .ldABc => [0x0A]
  | .ldADe => [0x1A]
  | .ldAHli => [0x2A]
  | .ldAHld => [0x3A]
  | .incRr rr => [withP 0x03 rr.code]
  | .decRr rr => [withP 0x0B rr.code]
  | .incR r => [withY 0x04 r.code]
  | .incHl => [0x34]
  | .decR r => [withY 0x05 r.code]
  | .decHl => [0x35]
  | .ldRN r n => [withY 0x06 r.code, n]
  | .ldHlN n => [0x36, n]
  | .rlca => [0x07]
  | .rrca => [0x0F]
  | .rla => [0x17]
  | .rra => [0x1F]
  | .daa => [0x27]
  | .cpl => [0x2F]
  | .scf => [0x37]
  | .ccf => [0x3F]
  | .ldRR r r' => [withZ (withY 0x40 r.code) r'.code]
  | .ldRHl r => [withY 0x46 r.code]
  | .ldHlR r => [withZ 0x70 r.code]
  | .halt => [0x76]
  | .addAR r => [withZ 0x80 r.code]
  | .addAHl => [0x86]
  | .addAN n => [0xC6, n]
  | .adcAR r => [withZ 0x88 r.code]
  | .adcAHl => [0x8E]
  | .adcAN n => [0xCE, n]
  | .subR r => [withZ 0x90 r.code]
  | .subHl => [0x96]
  | .subN n => [0xD6, n]
  | .sbcAR r => [withZ 0x98 r.code]
  | .sbcAHl => [0x9E]
  | .sbcAN n => [0xDE, n]
  | .andR r => [withZ 0xA0 r.code]
  | .andHl => [0xA6]
  | .andN n => [0xE6, n]
  | .xorR r => [withZ 0xA8 r.code]
  | .xorHl => [0xAE]
  | .xorN n => [0xEE, n]
  | .orR r => [withZ 0xB0 r.code]
  | .orHl => [0xB6]
  | .orN n => [0xF6, n]
  | .cpR r => [withZ 0xB8 r.code]
  | .cpHl => [0xBE]
  | .cpN n => [0xFE, n]
  | .retCc cc => [withY 0xC0 cc.code]
  | .ldhNA n => [0xE0, n]
  | .addSpE e => [0xE8, e]
  | .ldhAN n => [0xF0, n]
  | .ldHlSpE e => [0xF8, e]
  | .popQq qq => [withP 0xC1 qq.code]
  | .popAf => [0xF1]
  | .ret => [0xC9]
  | .reti => [0xD9]
  | .jpHl => [0xE9]
  | .ldSpHl => [0xF9]
  | .jpCcNn cc nn => withNn (withY 0xC2 cc.code) nn
  | .ldhCA => [0xE2]
  | .ldNnA nn => withNn 0xEA nn
  | .ldhAC => [0xF2]
  | .ldANn nn => withNn 0xFA nn
  | .jpNn nn => withNn 0xC3 nn
  | .di => [0xF3]
  | .ei => [0xFB]
  | .callCcNn cc nn => withNn (withY 0xC4 cc.code) nn
  | .pushQq qq => [withP 0xC5 qq.code]
  | .pushAf => [0xF5]
  | .callNn nn => withNn 0xCD nn
  | .rst t => [0xC7 ||| loByte t]
  | .illegalD3 => [0xD3]
  | .illegalDB => [0xDB]
  | .illegalDD => [0xDD]
  | .illegalE3 => [0xE3]
  | .illegalE4 => [0xE4]
  | .illegalEB => [0xEB]
  | .illegalEC => [0xEC]
  | .illegalED => [0xED]
  | .illegalF4 => [0xF4]
  | .illegalFC => [0xFC]
  | .illegalFD => [0xFD]
  | .rlcR r => [0xCB, withZ 0x00 r.code]
  | .rlcHl => [0xCB, 0x06]
  | .rrcR r => [0xCB, withZ 0x08 r.code]
  | .rrcHl => [0xCB, 0x0E]
  | .rlR r => [0xCB, withZ 0x10 r.code]
  | .rlHl => [0xCB, 0x16]
  | .rrR r => [0xCB, withZ 0x18 r.code]
  | .rrHl => [0xCB, 0x1E]
  | .slaR r => [0xCB, withZ 0x20 r.code]
  | .slaHl => [0xCB, 0x26]
  | .sraR r => [0xCB, withZ 0x28 r.code]
  | .sraHl => [0xCB, 0x2E]
  | .swapR r => [0xCB, withZ 0x30 r.code]
  | .swapHl => [0xCB, 0x36]
  | .srlR r => [0xCB, withZ 0x38 r.code]
  | .srlHl => [0xCB, 0x3E]
  | .bitBR b r => [0xCB, withZ (withY 0x40 (b.setWidth 8)) r.code]
  | .bitBHl b => [0xCB, withY 0x46 (b.setWidth 8)]
  | .resBR b r => [0xCB, withZ (withY 0x80 (b.setWidth 8)) r.code]
  | .resBHl b => [0xCB, withY 0x86 (b.setWidth 8)]
  | .setBR b r => [0xCB, withZ (withY 0xC0 (b.setWidth 8)) r.code]
  | .setBHl b => [0xCB, withY 0xC6 (b.setWidth 8)]

end Sys2Proof
end

