-- ==== Sys2Proof/Machine/Fetch.lean ====
section
/-! DEFINITION. What a step does before an instruction executes: the order of spec/60_exceptions.md R300 (interrupt check, HALT
state, deferred enable) and the fetch of the instruction's bytes (spec/30_encoding.md R101 to R103, R110, R115). -/

namespace Sys2Proof.Machine

/-- What the first three points of R300 decide: the step is over, or an instruction is fetched. -/
inductive Entry where
  | stepOver (s : State)
  | fetch (s : State)
  deriving DecidableEq, Repr

/-- The deferred enable (R302). -/
def deferredEnable (s : State) : State :=
  if s.eiDelay then { s with ime := true, eiDelay := false } else s

/-- The step up to the opcode fetch (R300): dispatch a pending enabled source (R315), or spend one halted tick (R303), or go on
with the deferred enable; a pending enabled source always ends HALT (R304). -/
def stepEntry (s : State) : Entry :=
  match checkInterrupts s with
  | some t =>
    let s1 := { s with halted := false }
    if s1.ime then .stepOver (dispatch t s1) else .fetch (deferredEnable s1)
  | none => if s.halted then .stepOver (tick s) else .fetch (deferredEnable s)

/-- The fetch of one whole instruction, each byte an M-cycle (R101 to R103, R110, R115). -/
def fetchInstr (s : State) : Flow Instr :=
  (fetchOpcode s).bind fun op s1 =>
    match decodeBase op with
    | .op i => .ok i s1
    | .n k => (fetch8 s1).map fun n s2 => (k n, s2)
    | .nn k => (fetch16 s1).map fun nn s2 => (k nn, s2)
    | .cb => (fetch8 s1).map fun op2 s2 => (decodeCb op2, s2)

/-- The bytes of a list stored in `flat` from an address upwards, wrapping (R80). -/
def placeBytes (m : Memory) (a : Word) (bytes : List Byte) : Memory :=
  match bytes with
  | [] => m
  | v :: rest => placeBytes (m.write a v) (a + 1) rest

end Sys2Proof.Machine
end

