-- ==== Sys2Proof/Machine/Step.lean ====
section
/-! DEFINITION. One step (`ProcessOpCode`, spec/60_exceptions.md R300). -/

namespace Sys2Proof.Machine

/-- One step (R300). A faulted machine has no further step (R324). A fault raised while fetching ends the step with `faulted`
set and what was done before kept (R320). -/
def step (s : State) : Host.Outcome State Fault Refusal :=
  match s.faulted with
  | some r => .fault (.machineFaulted r)
  | none =>
    match stepEntry s with
    | .stepOver s1 => .next s1
    | .fetch s1 =>
      match fetchInstr s1 with
      | .ok i s2 => exec i s2
      | .raised s2 => .next s2

/-- The state with a row's bytes stored where the next opcode is fetched: three bytes of `flat` from `pc` (log 3, log 4). -/
def State.withFetchWord (s : State) (nbits w : Nat) : State :=
  { s with flat := placeBytes s.flat s.pc (tableBytes nbits w) }

end Sys2Proof.Machine
end

