-- ==== Sys2Proof/Machine/Environment.lean ====
section
/-! DEFINITION. What happens outside a step: building the machine (spec/20_memory.md R70; spec/70_reset_and_hazards.md R360),
the host's interrupt requests, the debugger gate and snapshots between steps (spec/60_exceptions.md R312, R350;
spec/70_reset_and_hazards.md R371, R372, R379). -/

namespace Sys2Proof.Machine

/-! ### Construction -/

/-- `AttachIoRegister(address, handler)` (R70): one address has at most one handler, a second attach is ill-formed (D20). -/
def attach (registry : List (Word × Handler)) (a : Word) (h : Handler) : Option (List (Word × Handler)) :=
  if (registry.lookup a).isSome then none else some (registry ++ [(a, h)])

/-- Several attachments, in order (R70, "a peripheral may attach many addresses"). -/
def attachAll (registry : List (Word × Handler)) (todo : List (Word × Handler)) : Option (List (Word × Handler)) :=
  match todo with
  | [] => some registry
  | (a, h) :: rest =>
    match attach registry a h with
    | none => none
    | some r => attachAll r rest

/-- A program image in `flat`: (address, byte) pairs, later ones over earlier ones. -/
def loadImage (m : Memory) (image : List (Word × Byte)) : Memory :=
  match image with
  | [] => m
  | (a, v) :: rest => loadImage (m.write a v) rest

/-- The reset event (R360): the state of the selected profile, the registry of the six CORE handlers and the peripherals'
attachments, the image in memory; none where two attachments meet on one address. -/
def construct (p : ResetProfile) (cfg : Config) (regAddr : RegAddr) (peripherals : List Word) (image : List (Word × Byte))
    (env : Nat) : Option State :=
  match attachAll [] (coreRegistry regAddr ++ peripherals.map fun a => (a, Handler.peripheral)) with
  | none => none
  | some registry => some (State.ofProfile (Params.profile p) cfg registry (loadImage [] image) env)

/-! ### Between steps -/

/-- A request delivered by the host or a peripheral between steps (R312 place 3): it sets an IF bit and touches nothing else. -/
def hostRequest (t : Irq) (s : State) : State := requestInterrupt t s

/-- The debugger gate (R350): a declined step is no step (D34). -/
def gatedStep (shouldRun : Word → Bool) (s : State) : Host.Outcome State Fault Refusal :=
  if shouldRun s.pc then step s else .next s

/-- What a snapshot holds (R372): everything a step can change but `faulted` and `cycles`, with the state outside the CORE. -/
structure Snapshot where
  a : Byte
  f : Byte
  b : Byte
  c : Byte
  d : Byte
  e : Byte
  h : Byte
  l : Byte
  sp : Word
  pc : Word
  halted : Bool
  haltBug : Bool
  eiDelay : Bool
  ime : Bool
  ie : Byte
  ifr : BitVec 5
  counter : Word
  tima : Byte
  tma : Byte
  tac : BitVec 3
  reloadPending : Bool
  flat : Memory
  env : Nat
  deriving DecidableEq, Repr

/-- Taking a snapshot; "a faulted machine takes no snapshot" (R372). -/
def save (s : State) : Option Snapshot :=
  match s.faulted with
  | some _ => none
  | none =>
    some
      { a := s.a, f := s.f, b := s.b, c := s.c, d := s.d, e := s.e, h := s.h, l := s.l, sp := s.sp, pc := s.pc
        halted := s.halted, haltBug := s.haltBug, eiDelay := s.eiDelay, ime := s.ime, ie := s.ie, ifr := s.ifr
        counter := s.counter, tima := s.tima, tma := s.tma, tac := s.tac, reloadPending := s.reloadPending
        flat := s.flat, env := s.env }

/-- Loading a validated snapshot into a machine of the same construction: all the state of R372 at once (R379); it leaves the
faulted state (R324). -/
def load (p : Snapshot) (s : State) : State :=
  { s with
    a := p.a, f := p.f, b := p.b, c := p.c, d := p.d, e := p.e, h := p.h, l := p.l, sp := p.sp, pc := p.pc
    halted := p.halted, haltBug := p.haltBug, eiDelay := p.eiDelay, ime := p.ime, ie := p.ie, ifr := p.ifr
    counter := p.counter, tima := p.tima, tma := p.tma, tac := p.tac, reloadPending := p.reloadPending
    flat := p.flat, env := p.env, faulted := none }

/-- The host's load (R379): a file that does not validate is `none`, and leaves the machine exactly as it was. -/
def tryLoad (file : Option Snapshot) (s : State) : State :=
  match file with
  | none => s
  | some p => load p s

end Sys2Proof.Machine
end

