-- ==== Sys2Proof/Machine/Timing.lean ====
section
/-! DEFINITION. The M-cycle totals of spec/30_encoding.md R116, written from that table and from no meaning: what the timing
statements hold the meanings against. -/

namespace Sys2Proof.Machine

/-- Whether a conditional transfer is taken in this state; other instructions count as taken (R107). -/
def taken (i : Instr) (s : State) : Bool :=
  match i with
  | .jrCcE cc _ | .jpCcNn cc _ | .callCcNn cc _ | .retCc cc => s.cond cc
  | .nop | .ldNnSp _ | .stop | .jrE _ | .ldRrNn _ _ | .addHlRr _ | .ldBcA | .ldDeA | .ldHliA | .ldHldA | .ldABc
  | .ldADe | .ldAHli | .ldAHld | .incRr _ | .decRr _ | .incR _ | .incHl | .decR _ | .decHl | .ldRN _ _ | .ldHlN _
  | .rlca | .rrca | .rla | .rra | .daa | .cpl | .scf | .ccf | .ldRR _ _ | .ldRHl _ | .ldHlR _ | .halt | .addAR _
  | .addAHl | .addAN _ | .adcAR _ | .adcAHl | .adcAN _ | .subR _ | .subHl | .subN _ | .sbcAR _ | .sbcAHl | .sbcAN _
  | .andR _ | .andHl | .andN _ | .xorR _ | .xorHl | .xorN _ | .orR _ | .orHl | .orN _ | .cpR _ | .cpHl | .cpN _
  | .ldhNA _ | .addSpE _ | .ldhAN _ | .ldHlSpE _ | .popQq _ | .popAf | .ret | .reti | .jpHl | .ldSpHl | .ldhCA
  | .ldNnA _ | .ldhAC | .ldANn _ | .jpNn _ | .di | .ei | .pushQq _ | .pushAf | .callNn _ | .rst _ | .illegalD3
  | .illegalDB | .illegalDD | .illegalE3 | .illegalE4 | .illegalEB | .illegalEC | .illegalED | .illegalF4 | .illegalFC
  | .illegalFD | .rlcR _ | .rlcHl | .rrcR _ | .rrcHl | .rlR _ | .rlHl | .rrR _ | .rrHl | .slaR _ | .slaHl | .sraR _
  | .sraHl | .swapR _ | .swapHl | .srlR _ | .srlHl | .bitBR _ _ | .bitBHl _ | .resBR _ _ | .resBHl _ | .setBR _ _
  | .setBHl _ => true

/-- The M-cycles of an instruction, its fetches counted: `a` if taken, `b` if not, for an entry `a/b` of R116. A faulting byte
counts its one fetch. -/
def mcycles (i : Instr) (isTaken : Bool) : Nat :=
  match i with
  | .nop => 1
  | .ldNnSp _ => 5
  | .stop => 1
  | .jrE _ => 3
  | .jrCcE _ _ => if isTaken then 3 else 2
  | .ldRrNn _ _ => 3
  | .addHlRr _ => 2
  | .ldBcA => 2
  | .ldDeA => 2
  | .ldHliA => 2
  | .ldHldA => 2
  | .ldABc => 2
  | .ldADe => 2
  | .ldAHli => 2
  | .ldAHld => 2
  | .incRr _ => 2
  | .decRr _ => 2
  | .incR _ => 1
  | .incHl => 3
  | .decR _ => 1
  | .decHl => 3
  | .ldRN _ _ => 2
  | .ldHlN _ => 3
  | .rlca => 1
  | .rrca => 1
  | .rla => 1
  | .rra => 1
  | .daa => 1
  | .cpl => 1
  | .scf => 1
  | .ccf => 1
  | .ldRR _ _ => 1
  | .ldRHl _ => 2
  | .ldHlR _ => 2
  | .halt => 1
  | .addAR _ => 1
  | .addAHl => 2
  | .addAN _ => 2
  | .adcAR _ => 1
  | .adcAHl => 2
  | .adcAN _ => 2
  | .subR _ => 1
  | .subHl => 2
  | .subN _ => 2
  | .sbcAR _ => 1
  | .sbcAHl => 2
  | .sbcAN _ => 2
  | .andR _ => 1
  | .andHl => 2
  | .andN _ => 2
  | .xorR _ => 1
  | .xorHl => 2
  | .xorN _ => 2
  | .orR _ => 1
  | .orHl => 2
  | .orN _ => 2
  | .cpR _ => 1
  | .cpHl => 2
  | .cpN _ => 2
  | .retCc _ => if isTaken then 5 else 2
  | .ldhNA _ => 3
  | .addSpE _ => 4
  | .ldhAN _ => 3
  | .ldHlSpE _ => 3
  | .popQq _ => 3
  | .popAf => 3
  | .ret => 4
  | .reti => 4
  | .jpHl => 1
  | .ldSpHl => 2
  | .jpCcNn _ _ => if isTaken then 4 else 3
  | .ldhCA => 2
  | .ldNnA _ => 4
  | .ldhAC => 2
  | .ldANn _ => 4
  | .jpNn _ => 4
  | .di => 1
  | .ei => 1
  | .callCcNn _ _ => if isTaken then 6 else 3
  | .pushQq _ => 4
  | .pushAf => 4
  | .callNn _ => 6
  | .rst _ => 4
  | .illegalD3 => 1
  | .illegalDB => 1
  | .illegalDD => 1
  | .illegalE3 => 1
  | .illegalE4 => 1
  | .illegalEB => 1
  | .illegalEC => 1
  | .illegalED => 1
  | .illegalF4 => 1
  | .illegalFC => 1
  | .illegalFD => 1
  | .rlcR _ => 2
  | .rlcHl => 4
  | .rrcR _ => 2
  | .rrcHl => 4
  | .rlR _ => 2
  | .rlHl => 4
  | .rrR _ => 2
  | .rrHl => 4
  | .slaR _ => 2
  | .slaHl => 4
  | .sraR _ => 2
  | .sraHl => 4
  | .swapR _ => 2
  | .swapHl => 4
  | .srlR _ => 2
  | .srlHl => 4
  | .bitBR _ _ => 2
  | .bitBHl _ => 3
  | .resBR _ _ => 2
  | .resBHl _ => 4
  | .setBR _ _ => 2
  | .setBHl _ => 4

end Sys2Proof.Machine
end

