-- ==== Sys2Proof/Safety.lean ====
section
/-! DEFINITION. What counts as a sound state and a safe run: the invariants of spec/10_state.md R48, a machine wired so that only
illegal opcodes fault, and the views of the state that the statements speak of. -/

namespace Sys2Proof.Machine

/-! ### Invariants between steps (R48) -/

/-- The invariants that hold between steps: (a) F[3:0] = 0; (b) HALT's two bits and the EI delay exclude each other; the halt bug
is pending only with IME = 0 and no EI delay (R315 corner case b); (d) the divider is a multiple of 4; and `flat` is in its
canonical form. -/
structure StateInv (s : State) : Prop where
  flagsLow : s.f &&& 0x0F = 0
  haltedAlone : s.halted = true → s.haltBug = false ∧ s.eiDelay = false
  haltBugMasked : s.haltBug = true → s.ime = false ∧ s.eiDelay = false
  counterAligned : s.counter.toNat % 4 = 0
  flatCanonical : s.flat.wf = true

/-- A machine in which no bus read raises `HandlerMissing` and no jump raises `SelfJump`: the defaults of
spec/00_scope.md R7 meet it. -/
structure FaultFreeWiring (s : State) : Prop where
  noMissingHandler : s.cfg.mustHaveHandler = []
  noSelfJumpCheck : s.cfg.selfJumpCheck = false

/-- States some number of steps leads to from `s`. -/
inductive ReachableFrom (s : State) : State → Prop where
  | here : ReachableFrom s s
  | step {t u : State} : ReachableFrom s t → Machine.step t = .next u → ReachableFrom s u

/-! ### Plain memory -/

/-- The address is served by `flat` on reads and writes alike: outside the I/O window of a flat platform (R64), or inside the
window with no handler and no obligation to have one (R68, R69). -/
def plainAt (s : State) (a : Word) : Bool :=
  if inWindow s.cfg a then (s.registry.lookup a).isNone && !s.cfg.mustHaveHandler.contains a
  else s.cfg.platform == .flat

/-! ### Views of the state -/

/-- The CPU engine's part of the state: all of it that ticks and bus accesses leave alone. -/
structure Cpu where
  a : Byte
  f : Byte
  b : Byte
  c : Byte
  d : Byte
  e : Byte
  h : Byte
  l : Byte
  sp : Word
  pc : Word
  ime : Bool
  eiDelay : Bool
  halted : Bool
  haltBug : Bool
  faulted : Option FaultRecord
  curOp : Option Byte
  opaddr : Word
  deriving DecidableEq, Repr

/-- The CPU engine's part. -/
def State.cpu (s : State) : Cpu :=
  { a := s.a, f := s.f, b := s.b, c := s.c, d := s.d, e := s.e, h := s.h, l := s.l, sp := s.sp, pc := s.pc
    ime := s.ime, eiDelay := s.eiDelay, halted := s.halted, haltBug := s.haltBug, faulted := s.faulted
    curOp := s.curOp, opaddr := s.opaddr }

/-- The state with the CPU engine's part replaced. -/
def State.withCpu (s : State) (p : Cpu) : State :=
  { s with
    a := p.a, f := p.f, b := p.b, c := p.c, d := p.d, e := p.e, h := p.h, l := p.l, sp := p.sp, pc := p.pc
    ime := p.ime, eiDelay := p.eiDelay, halted := p.halted, haltBug := p.haltBug, faulted := p.faulted
    curOp := p.curOp, opaddr := p.opaddr }

/-- What construction fixed (R41, R70). -/
def SameConstruction (s t : State) : Prop := t.cfg = s.cfg ∧ t.registry = s.registry

/-! ### The vocabulary of the statements about instructions -/

/-- `n` M-cycles pass. -/
def ticks (n : Nat) (s : State) : State :=
  match n with
  | 0 => s
  | k + 1 => ticks k (tick s)

/-- From `s` to `t` at most `n` M-cycles have passed, with whatever the environment did in them: the CPU engine's part, IE, TMA,
TAC and memory are as before. -/
def OnlyTime (n : Nat) (s t : State) : Prop :=
  t = { s with
        counter := s.counter + BitVec.ofNat 16 (4 * n), tima := t.tima, ifr := t.ifr, reloadPending := t.reloadPending
        cycles := s.cycles + 4 * n, env := t.env }

/-- `n` internal M-cycles (R76): exactly `n` ticks, in which only time passes. -/
def Waits (n : Nat) (s t : State) : Prop := t = ticks n s ∧ OnlyTime n s t

/-- The read M-cycle at `a` answers `v` and leaves `u`, in which only time has passed (R74). -/
def Reads (a : Word) (s : State) (v : Byte) (u : State) : Prop :=
  memRead a s = .ok v u ∧ OnlyTime 1 s u ∧ (plainAt s a = true → v = s.flat.read a ∧ u = tick s)

/-- `t` is `u` after the write M-cycle that stores `v` at `a` (R75): the bus and the timer are all that it changes, every other
byte of `flat` is as before, and at a plain address the byte is stored and one tick has passed. -/
def Stores (a : Word) (v : Byte) (u t : State) : Prop :=
  t = memWrite a v u ∧
  t = { u with
        ie := t.ie, ifr := t.ifr, counter := t.counter, tima := t.tima, tma := t.tma, tac := t.tac
        reloadPending := t.reloadPending, flat := t.flat, cycles := u.cycles + 4, env := t.env } ∧
  (∀ b, b ≠ a → t.flat.read b = u.flat.read b) ∧
  (plainAt u a = true → t = { tick u with flat := u.flat.write a v }) ∧
  (plainAt u a = true → u.flat.wf = true → t.flat.read a = v)

/-- The two write M-cycles of a push (R160): the high byte at `sp - 1`, then the low byte at `sp - 2`. -/
def Pushes (v : Word) (u t : State) : Prop :=
  ∃ m, Stores (u.sp - 1) (hiByte v) { u with sp := u.sp - 1 } m ∧ Stores (u.sp - 2) (loByte v) { m with sp := u.sp - 2 } t

/-- The two read M-cycles of a pop (R161): the low byte at `sp`, then the high byte at `sp + 1`. -/
def Pops (u : State) (v : Word) (t : State) : Prop :=
  ∃ lo m hi w,
    Reads u.sp u lo m ∧ Reads (u.sp + 1) { m with sp := u.sp + 1 } hi w ∧ v = word hi lo ∧ t = { w with sp := u.sp + 2 }

/-- Both bytes of a pop can be read. -/
def poppable (s : State) : Bool := readable s.sp s && readable (s.sp + 1) s

/-- Only the flags of F may differ: bits 3..0 are as before (R27). -/
def WritesFlags (s t : State) : Prop := t = { s with f := t.f } ∧ t.f &&& 0x0F = s.f &&& 0x0F

/-- Only A and the flags may differ. -/
def WritesAccFlags (s t : State) : Prop := t = { s with a := t.a, f := t.f } ∧ t.f &&& 0x0F = s.f &&& 0x0F

/-- Only the register `r` and the flags may differ. -/
def WritesRegFlags (r : Reg8) (s t : State) : Prop :=
  t = { s with f := t.f }.setR8 r (t.r8 r) ∧ t.f &&& 0x0F = s.f &&& 0x0F

/-- The three operand forms of an accumulator operation (spec/42_alu8.md section 2) complete: from a register, from an immediate
byte, and from the byte at HL after its read M-cycle. `post u v t` is what holds of the next state `t`, of the state `u` in
which the operand is at hand and of the operand `v`. -/
def OperandForms (onReg : Reg8 → Instr) (onImm : Byte → Instr) (onHl : Instr) (post : State → Byte → State → Prop) : Prop :=
  ∀ s : State,
    (∀ r, ∃ t, exec (onReg r) s = .next t ∧ post s (s.r8 r) t) ∧
    (∀ n, ∃ t, exec (onImm n) s = .next t ∧ post s n t) ∧
    (readable s.hl s = true → ∃ v u t, Reads s.hl s v u ∧ exec onHl s = .next t ∧ post u v t)

/-- The four flags as given. -/
def FlagsAre (t : State) (z n h c : Bool) : Prop := t.flagZ = z ∧ t.flagN = n ∧ t.flagH = h ∧ t.flagC = c

/-- One row of the rotate and shift table of R234, in arithmetic: the register form, the (HL) form, the result from the value and
the old carry (0 or 1), and the new carry. -/
structure RotRow where
  onReg : Reg8 → Instr
  onHl : Instr
  result : Nat → Nat → Nat
  carry : Nat → Bool

/-- R234 for the CB page: RLC, RRC, RL, RR, SLA, SRA, SWAP, SRL. -/
def rotTable : List RotRow :=
  [{ onReg := .rlcR, onHl := .rlcHl, result := fun v _ => 2 * v % 256 + v / 128, carry := fun v => decide (128 ≤ v) },
   { onReg := .rrcR, onHl := .rrcHl, result := fun v _ => v / 2 + 128 * (v % 2), carry := fun v => decide (v % 2 = 1) },
   { onReg := .rlR, onHl := .rlHl, result := fun v c => 2 * v % 256 + c, carry := fun v => decide (128 ≤ v) },
   { onReg := .rrR, onHl := .rrHl, result := fun v c => v / 2 + 128 * c, carry := fun v => decide (v % 2 = 1) },
   { onReg := .slaR, onHl := .slaHl, result := fun v _ => 2 * v % 256, carry := fun v => decide (128 ≤ v) },
   { onReg := .sraR, onHl := .sraHl, result := fun v _ => v / 2 + 128 * (v / 128), carry := fun v => decide (v % 2 = 1) },
   { onReg := .swapR, onHl := .swapHl, result := fun v _ => 16 * (v % 16) + v / 16, carry := fun _ => false },
   { onReg := .srlR, onHl := .srlHl, result := fun v _ => v / 2, carry := fun v => decide (v % 2 = 1) }]

/-- The opcode bytes that raise `IllegalOpcode` (R113, R321), with their instructions. -/
def illegalTable : List (Byte × Instr) :=
  [(0x10, .stop), (0xD3, .illegalD3), (0xDB, .illegalDB), (0xDD, .illegalDD), (0xE3, .illegalE3), (0xE4, .illegalE4),
   (0xEB, .illegalEB), (0xEC, .illegalEC), (0xED, .illegalED), (0xF4, .illegalF4), (0xFC, .illegalFC), (0xFD, .illegalFD)]

/-- The addresses of the data bytes an instruction reads in this state, in the order of its read M-cycles: one for a memory
operand, two for a pop (R161). -/
def dataReads (i : Instr) (s : State) : List Word :=
  match i with
  | .ldABc => [s.bc]
  | .ldADe => [s.de]
  | .ldANn nn => [nn]
  | .ldhAC => [highPage s.c]
  | .ldhAN n => [highPage n]
  | .ldRHl _ | .ldAHli | .ldAHld | .addAHl | .adcAHl | .subHl | .sbcAHl | .andHl | .xorHl | .orHl | .cpHl | .incHl
  | .decHl | .rlcHl | .rrcHl | .rlHl | .rrHl | .slaHl | .sraHl | .swapHl | .srlHl | .bitBHl _ | .resBHl _ | .setBHl _ => [s.hl]
  | .popQq _ | .popAf | .ret | .reti => [s.sp, s.sp + 1]
  | .retCc cc => if s.cond cc then [s.sp, s.sp + 1] else []
  | .nop | .ldNnSp _ | .stop | .jrE _ | .jrCcE _ _ | .ldRrNn _ _ | .addHlRr _ | .ldBcA | .ldDeA | .ldHliA | .ldHldA
  | .incRr _ | .decRr _ | .incR _ | .decR _ | .ldRN _ _ | .ldHlN _ | .rlca | .rrca | .rla | .rra | .daa | .cpl | .scf
  | .ccf | .ldRR _ _ | .ldHlR _ | .halt | .addAR _ | .addAN _ | .adcAR _ | .adcAN _ | .subR _ | .subN _ | .sbcAR _
  | .sbcAN _ | .andR _ | .andN _ | .xorR _ | .xorN _ | .orR _ | .orN _ | .cpR _ | .cpN _ | .ldhNA _ | .addSpE _
  | .ldHlSpE _ | .jpHl | .ldSpHl | .jpCcNn _ _ | .ldhCA | .ldNnA _ | .jpNn _ | .di | .ei | .callCcNn _ _ | .pushQq _
  | .pushAf | .callNn _ | .rst _ | .illegalD3 | .illegalDB | .illegalDD | .illegalE3 | .illegalE4 | .illegalEB
  | .illegalEC | .illegalED | .illegalF4 | .illegalFC | .illegalFD | .rlcR _ | .rrcR _ | .rlR _ | .rrR _ | .slaR _
  | .sraR _ | .swapR _ | .srlR _ | .bitBR _ _ | .resBR _ _ | .setBR _ _ => []

/-- The instruction makes a write M-cycle in this state: the stores, the read-modify-writes of the byte at HL, the pushes, and
the calls that are taken. -/
def writesBus (i : Instr) (s : State) : Bool :=
  match i with
  | .ldNnSp _ | .ldBcA | .ldDeA | .ldHliA | .ldHldA | .ldHlN _ | .ldHlR _ | .ldhNA _ | .ldhCA | .ldNnA _ | .incHl
  | .decHl | .rlcHl | .rrcHl | .rlHl | .rrHl | .slaHl | .sraHl | .swapHl | .srlHl | .resBHl _ | .setBHl _ | .pushQq _
  | .pushAf | .callNn _ | .rst _ => true
  | .callCcNn cc _ => s.cond cc
  | .nop | .stop | .jrE _ | .jrCcE _ _ | .ldRrNn _ _ | .addHlRr _ | .ldABc | .ldADe | .ldAHli | .ldAHld | .incRr _
  | .decRr _ | .incR _ | .decR _ | .ldRN _ _ | .rlca | .rrca | .rla | .rra | .daa | .cpl | .scf | .ccf | .ldRR _ _
  | .ldRHl _ | .halt | .addAR _ | .addAHl | .addAN _ | .adcAR _ | .adcAHl | .adcAN _ | .subR _ | .subHl | .subN _
  | .sbcAR _ | .sbcAHl | .sbcAN _ | .andR _ | .andHl | .andN _ | .xorR _ | .xorHl | .xorN _ | .orR _ | .orHl | .orN _
  | .cpR _ | .cpHl | .cpN _ | .retCc _ | .addSpE _ | .ldhAN _ | .ldHlSpE _ | .popQq _ | .popAf | .ret | .reti | .jpHl
  | .ldSpHl | .jpCcNn _ _ | .ldhAC | .ldANn _ | .jpNn _ | .di | .ei | .illegalD3 | .illegalDB | .illegalDD
  | .illegalE3 | .illegalE4 | .illegalEB | .illegalEC | .illegalED | .illegalF4 | .illegalFC | .illegalFD | .rlcR _
  | .rrcR _ | .rlR _ | .rrR _ | .slaR _ | .sraR _ | .swapR _ | .srlR _ | .bitBR _ _ | .bitBHl _ | .resBR _ _
  | .setBR _ _ => false

/-- `n` bytes of memory from `a` upwards, wrapping (R80). -/
def bytesFrom (m : Memory) (a : Word) (n : Nat) : List Byte :=
  match n with
  | 0 => []
  | k + 1 => m.read a :: bytesFrom m (a + 1) k

/-- The bytes after the first one, by the first byte alone (R100, R115): the opcode columns of R116 whose length is 2 or 3. -/
def operandCount (op : Byte) : Nat :=
  if op = 0xCB then 1
  else if op &&& 0xC7 = 0x06 ∨ op &&& 0xE7 = 0x20 ∨ op &&& 0xC7 = 0xC6 ∨ op ∈ [0x18#8, 0xE0, 0xF0, 0xE8, 0xF8] then 1
  else if op &&& 0xCF = 0x01 ∨ op &&& 0xE7 = 0xC2 ∨ op &&& 0xE7 = 0xC4 ∨ op ∈ [0x08#8, 0xC3, 0xCD, 0xEA, 0xFA] then 2
  else 0

end Sys2Proof.Machine
end

