-- ==== Sys2Proof/Certificates/Slice0/Obligations.lean ====
section
/-! DEFINITION. The statements for the provers. Each docstring names the rule of spec/ it speaks of. -/

open Sys2Proof Sys2Proof.Machine

/-! ### Encoding (spec/30_encoding.md) -/

/-- R100, R108, R110: decoding the encoding of any well-formed instruction gives it back and leaves what follows. -/
def Obligations.DecodeOfEncode : Prop :=
  ∀ (i : Instr) (rest : List Byte), i.WellFormed → decode (encode i ++ rest) = .ok (i, rest)

/-- R109, R111: every byte list that decodes is the encoding of one well-formed instruction followed by the rest; no two
encodings of one instruction, no bit ignored. -/
def Obligations.EncodeOfDecode : Prop :=
  ∀ (bytes rest : List Byte) (i : Instr), decode bytes = .ok (i, rest) → i.WellFormed ∧ bytes = encode i ++ rest

/-- R115: the first byte alone decides the length; every first byte decodes as soon as its operand bytes are there, and decoding
consumes exactly these. -/
def Obligations.FirstByteDecidesLength : Prop :=
  ∀ (op : Byte) (rest : List Byte),
    (operandCount op ≤ rest.length → ∃ i, decode (op :: rest) = .ok (i, rest.drop (operandCount op))) ∧
    (rest.length < operandCount op → decode (op :: rest) = .error .truncated)

/-- Words of the opcode maps R109 and R111, written bit by bit, one for each family. -/
def Obligations.DecodedWords : Prop :=
  decode [0b01111000] = .ok (.ldRR .a .b, []) ∧
  decode [0b00110110, 0xAA] = .ok (.ldHlN 0xAA, []) ∧
  decode [0b00110001, 0xFE, 0xFF] = .ok (.ldRrNn .sp 0xFFFE, []) ∧
  decode [0b11110101] = .ok (.pushAf, []) ∧
  decode [0b10011110] = .ok (.sbcAHl, []) ∧
  decode [0b00101001] = .ok (.addHlRr .hl, []) ∧
  decode [0b11001011, 0b01111110] = .ok (.bitBHl 7, []) ∧
  decode [0b00100000, 0xFC] = .ok (.jrCcE .nz 0xFC, []) ∧
  decode [0b11101111] = .ok (.rst 0x0028, []) ∧
  decode [0b01110110] = .ok (.halt, []) ∧
  decode [0b11111101] = .ok (.illegalFD, [])

/-! ### Reset and the invariant (spec/10_state.md, spec/70_reset_and_hazards.md) -/

/-- R46, R360, R361, profile `power_on` (the model's choice where the spec offers two profiles: log 1): construction with every
default gives `State.reset`, in which every register and the timer hold 0, so that it fetches from 0x0000 with nothing enabled,
nothing pending, TIMA stopped and no interrupt to dispatch. -/
def Obligations.ResetIsPowerOn : Prop :=
  construct .powerOn Params.config Params.regAddr [] [] 0 = some State.reset ∧
  State.reset.pc = 0x0000 ∧ State.reset.sp = 0x0000 ∧ State.reset.ime = false ∧ State.reset.ie = 0x00 ∧
  State.reset.ifr = 0 ∧ State.reset.halted = false ∧ State.reset.haltBug = false ∧ State.reset.eiDelay = false ∧
  State.reset.counter = 0x0000 ∧ State.reset.reloadPending = false ∧
  State.reset.tima = 0x00 ∧ State.reset.tma = 0x00 ∧ State.reset.tac = 0b000 ∧ State.reset.faulted = none ∧
  State.reset.cycles = 0 ∧ State.reset.a = 0x00 ∧ State.reset.f = 0x00 ∧ State.reset.bc = 0x0000 ∧
  State.reset.de = 0x0000 ∧ State.reset.hl = 0x0000 ∧ checkInterrupts State.reset = none

/-- R27, R48: the invariant holds after reset, in both profiles. -/
def Obligations.ResetMeetsInvariant : Prop :=
  StateInv State.reset ∧
  ∀ (cfg : Config) (registry : List (Word × Handler)) (env : Nat),
    StateInv (State.ofProfile Params.postBootDmg cfg registry [] env)

/-- R27, R48: every step keeps the invariant, from every state that meets it. -/
def Obligations.StepKeepsInvariant : Prop :=
  ∀ s t : State, StateInv s → step s = .next t → StateInv t

/-- R41, R70: no step changes what construction fixed. -/
def Obligations.StepKeepsConstruction : Prop :=
  ∀ s t : State, step s = .next t → SameConstruction s t

/-- R300, R324, R325: a machine that has not faulted always has a next step, whatever the program does; a faulted one has none. -/
def Obligations.StepStopsOnlyWhenFaulted : Prop :=
  ∀ s : State, (s.faulted = none → ∃ t, step s = .next t) ∧ ∀ r, s.faulted = some r → step s = .fault (.machineFaulted r)

/-! ### The step and interrupts (spec/60_exceptions.md) -/

/-- R310, whole: the pending and enabled source of the least type number, none where there is none; IME and IE[7:5] take no
part. -/
def Obligations.CheckInterruptsPicksLeast : Prop :=
  ∀ s : State,
    (checkInterrupts s = none ↔ ∀ t : Irq, ¬ (s.ie.getLsbD t.num = true ∧ s.ifr.getLsbD t.num = true)) ∧
    ∀ t : Irq,
      checkInterrupts s = some t ↔
        (s.ie.getLsbD t.num = true ∧ s.ifr.getLsbD t.num = true) ∧
        ∀ u : Irq, u.num < t.num → ¬ (s.ie.getLsbD u.num = true ∧ s.ifr.getLsbD u.num = true)

/-- R311, whole: a request sets its bit of IF, whatever IME and IE are, and changes nothing else; a second one changes
nothing. -/
def Obligations.RequestSetsOneBit : Prop :=
  ∀ (t : Irq) (s : State),
    requestInterrupt t s = { s with ifr := (requestInterrupt t s).ifr } ∧
    (∀ u : Irq, (requestInterrupt t s).ifr.getLsbD u.num = (decide (u = t) || s.ifr.getLsbD u.num)) ∧
    (s.ifr.getLsbD t.num = true → requestInterrupt t s = s)

/-- R315, R316, R317, R313, R76: with IME = 1 a step dispatches the source that `CheckInterrupts` gives: HALT ends, IME is 0, two
ticks pass, `pc` is pushed, the source's bit of IF is cleared and no other, `pc` is the vector, and one more tick passes; every
other register and the EI delay are as before, five M-cycles later. -/
def Obligations.DispatchTakesInterrupt : Prop :=
  ∀ (s : State) (t : Irq), s.faulted = none → s.ime = true → checkInterrupts s = some t →
    ∃ (w x : State) (c : BitVec 5),
      Pushes s.pc (tick (tick { s with ime := false, halted := false })) w ∧
      (∀ u : Irq, c.getLsbD u.num = (w.ifr.getLsbD u.num && decide (u ≠ t))) ∧
      x = tick { w with ifr := c, pc := BitVec.ofNat 16 (0x0040 + 8 * t.num) } ∧
      step s = .next x ∧
      x.cpu =
        { s.cpu with
          ime := false, halted := false, sp := s.sp - 2, pc := BitVec.ofNat 16 (0x0040 + 8 * t.num) } ∧
      x.cycles = s.cycles + 20

/-- R315: on flat memory with the timer quiet and the stack in plain memory, the dispatch stores the old `pc` below the old
`sp`, changes no other byte, and clears the source's bit of IF and no other. -/
def Obligations.DispatchStackAndFlag : Prop :=
  ∀ (s : State) (t : Irq), s.faulted = none → s.ime = true → checkInterrupts s = some t → s.cfg.platform = .flat →
    s.reloadPending = false → s.tac.getLsbD 2 = false → plainAt s (s.sp - 1) = true → plainAt s (s.sp - 2) = true →
    ∃ x,
      step s = .next x ∧ x.flat = (s.flat.write (s.sp - 1) (hiByte s.pc)).write (s.sp - 2) (loByte s.pc) ∧
      ∀ u : Irq, x.ifr.getLsbD u.num = (s.ifr.getLsbD u.num && decide (u ≠ t))

/-- R303, whole: while halted with no enabled source pending, the step is exactly one tick. -/
def Obligations.HaltedStepIsOneTick : Prop :=
  ∀ s : State, s.faulted = none → s.halted = true → pending s = 0 →
    step s = .next (tick s) ∧ OnlyTime 1 s (tick s)

/-- R300, R101 to R103, R110, R115: where the interrupt check lets an instruction be fetched and the bytes in plain memory
decode to `i`, the step is `exec i` after one M-cycle a byte, with `pc` past the bytes; under the halt bug the opcode byte does
not advance `pc`, so that it is the first operand byte too. -/
def Obligations.StepRunsDecodedInstruction : Prop :=
  ∀ (s u : State) (i : Instr) (n : Nat),
    s.faulted = none → stepEntry s = .fetch u →
    decode (u.flat.read u.pc :: bytesFrom u.flat (if u.haltBug then u.pc else u.pc + 1) n) = .ok (i, []) →
    plainAt u u.pc = true →
    (∀ k, k < n → plainAt u ((if u.haltBug then u.pc else u.pc + 1) + BitVec.ofNat 16 k) = true) →
    step s =
      exec i
        { ticks (n + 1) u with
          pc := (if u.haltBug then u.pc else u.pc + 1) + BitVec.ofNat 16 n, haltBug := false
          curOp := some (u.flat.read u.pc), opaddr := u.pc }

/-- R300, R302, R304 (b) (decision D7): what the step decides before it fetches. A pending enabled source ends HALT whatever IME
is and is dispatched only with the IME found; the EI delay is used up after that check and before the fetch. -/
def Obligations.StepEntryOrder : Prop :=
  ∀ s : State,
    (∀ t, checkInterrupts s = some t → s.ime = true → stepEntry s = .stepOver (dispatch t { s with halted := false })) ∧
    (∀ t, checkInterrupts s = some t → s.ime = false →
      stepEntry s = .fetch (deferredEnable { s with halted := false })) ∧
    (checkInterrupts s = none → s.halted = true → stepEntry s = .stepOver (tick s)) ∧
    (checkInterrupts s = none → s.halted = false → stepEntry s = .fetch (deferredEnable s)) ∧
    (s.eiDelay = true → deferredEnable s = { s with ime := true, eiDelay := false }) ∧
    (s.eiDelay = false → deferredEnable s = s)

/-! ### Faults (spec/60_exceptions.md section 3) -/

/-- R321, R113: wired with the defaults, a step faults only where its opcode fetch answers one of the twelve bytes: that byte is
recorded with the address it was fetched from, and the fetch is all that the step did: one M-cycle, and `pc` past the byte (or on
it under the halt bug). -/
def Obligations.OnlyIllegalOpcodesFault : Prop :=
  ∀ (s t : State) (r : FaultRecord),
    FaultFreeWiring s → s.faulted = none → step s = .next t → t.faulted = some r →
    ∃ op i u w,
      (op, i) ∈ illegalTable ∧ stepEntry s = .fetch u ∧ u.pc = s.pc ∧ fetchOpcode u = .ok op w ∧ fetchInstr u = .ok i w ∧
      (plainAt s s.pc = true → op = s.flat.read s.pc) ∧
      t = { w with faulted := some r } ∧ r = { kind := .illegalOpcode, op := some op, addr := s.pc } ∧
      t.cycles = s.cycles + 4 ∧ t.pc = (if s.haltBug then s.pc else s.pc + 1) ∧ t.flat = s.flat ∧ t.sp = s.sp

/-- R282, R285: STOP and the eleven illegal bytes raise `IllegalOpcode` with the byte and its address and do nothing else. -/
def Obligations.IllegalOpcodesRaise : Prop :=
  ∀ (op : Byte) (i : Instr), (op, i) ∈ illegalTable →
    decode [op] = .ok (i, []) ∧
    ∀ s : State,
      exec i s = .next { s with faulted := some { kind := .illegalOpcode, op := some op, addr := s.opaddr } }

/-- R322, R73: a read of an address that must have a handler and has none ends the step there, with `HandlerMissing`, the opcode
and that address recorded: a data read of the instruction, the second byte of a pop (`sp` past the first one) among them; the
opcode fetch, where the record has no opcode (the model's reading: log 6); the fetch of the `k`-th operand byte. What the step did
before stays, no byte of memory changes, and with access-then-tick the tick of the read's own M-cycle does not come. -/
def Obligations.UnhandledReadRaises : Prop :=
  (∀ (i : Instr) (s : State) (before after : List Word) (a : Word),
    dataReads i s = before ++ a :: after → (∀ b ∈ before, readable b s = true) → readable a s = false →
    ∃ t,
      exec i s = .next t ∧
      t.cpu =
        { s.cpu with
          sp := s.sp + BitVec.ofNat 16 before.length
          faulted := some { kind := .handlerMissing, op := s.curOp, addr := a } } ∧
      t.flat = s.flat ∧
      (s.cfg.accessPhase = .accessThenTick →
        t.cycles = s.cycles + 4 * (before.length + (match i with | .retCc _ => 1 | _ => 0)))) ∧
  ∀ s u : State, s.faulted = none → stepEntry s = .fetch u →
    (readable u.pc u = false →
      ∃ t,
        step s = .next t ∧
        t.cpu =
          { u.cpu with
            curOp := none, opaddr := u.pc, faulted := some { kind := .handlerMissing, op := none, addr := u.pc } } ∧
        t.flat = s.flat ∧ (s.cfg.accessPhase = .accessThenTick → t.cycles = s.cycles)) ∧
    ∀ (op : Byte) (w : State) (k : Nat),
      fetchOpcode u = .ok op w → k < operandCount op → (∀ j, j < k → readable (w.pc + BitVec.ofNat 16 j) w = true) →
      readable (w.pc + BitVec.ofNat 16 k) w = false →
      ∃ t,
        step s = .next t ∧
        t.cpu =
          { w.cpu with
            pc := w.pc + BitVec.ofNat 16 k
            faulted := some { kind := .handlerMissing, op := some op, addr := w.pc + BitVec.ofNat 16 k } } ∧
        t.flat = s.flat ∧ (s.cfg.accessPhase = .accessThenTick → t.cycles = s.cycles + 4 * (k + 1))

/-- R262, the spec's decision D13: with the check on, a taken JR or JP to its own opcode raises `SelfJump` and does not write
`pc`. That the record holds the opcode of the jump and that no internal M-cycle comes first is the model's reading (log 20). -/
def Obligations.SelfJumpRaises : Prop :=
  ∀ (s : State) (nn : Word) (e : Byte) (cc : Cond),
    s.cfg.selfJumpCheck = true →
    (nn = s.opaddr →
      exec (.jpNn nn) s = .next (raiseFault .selfJump s.opaddr s) ∧
      (s.cond cc = true → exec (.jpCcNn cc nn) s = .next (raiseFault .selfJump s.opaddr s))) ∧
    (s.pc + sext16 e = s.opaddr →
      exec (.jrE e) s = .next (raiseFault .selfJump s.opaddr s) ∧
      (s.cond cc = true → exec (.jrCcE cc e) s = .next (raiseFault .selfJump s.opaddr s)))

/-! ### The bus (spec/20_memory.md) -/

/-- R68 and R69: an access in the window asks the handler; without one, a read raises where one must be and else reads
`flat`, and a write goes to `flat`, as it does where a peripheral answers `not_handled`; an access elsewhere goes to the
platform. Neither takes time, and a read changes nothing but a peripheral's own state. The clauses about a peripheral and the
platform rest on R71, R82, decision D21 and on the model's choice of `env` (log 8, log 9). -/
def Obligations.BusRoutes : Prop :=
  ∀ (s : State) (a : Word) (v : Byte),
    (inWindow s.cfg a = true →
      (∀ h, s.registry.lookup a = some h → busRead a s = readHandler h a s ∧ busWrite a v s = writeHandler h a v s) ∧
      (s.registry.lookup a = none →
        (s.cfg.mustHaveHandler.contains a = true → busRead a s = .raised (raiseFault .handlerMissing a s)) ∧
        (s.cfg.mustHaveHandler.contains a = false → busRead a s = .ok (s.flat.read a) s) ∧
        busWrite a v s = { s with flat := s.flat.write a v }) ∧
      (s.registry.lookup a = some .peripheral →
        busWrite a v s =
          if (Config.peripheralWrite s.env a v).1 then { s with env := (Config.peripheralWrite s.env a v).2 }
          else { s with env := (Config.peripheralWrite s.env a v).2, flat := s.flat.write a v })) ∧
    (inWindow s.cfg a = false → busRead a s = .ok (platformRead a s) s ∧ busWrite a v s = platformWrite a v s) ∧
    (readable a s = true → ∃ x k, busRead a s = .ok x { s with env := k }) ∧ (busWrite a v s).cycles = s.cycles

/-- R72, with R345 and R346: what the six CORE registers answer, and what a write of those other than DIV stores, changing
nothing else. The masks of TAC and IF are the spec's decisions D18 and D19; what a write of IE with IE_UPPER = dropped stores is the
model's reading of D19 (log 19). -/
def Obligations.CoreRegisters : Prop :=
  ∀ (s : State) (a : Word) (v : Byte), inWindow s.cfg a = true →
    (s.registry.lookup a = some (.core .div) → busRead a s = .ok (s.counter.extractLsb' 8 8) s) ∧
    (s.registry.lookup a = some (.core .tima) → busRead a s = .ok s.tima s ∧ busWrite a v s = { s with tima := v }) ∧
    (s.registry.lookup a = some (.core .tma) → busRead a s = .ok s.tma s ∧ busWrite a v s = { s with tma := v }) ∧
    (s.registry.lookup a = some (.core .tac) →
      busRead a s = .ok (0b11111#5 ++ s.tac) s ∧ busWrite a v s = { s with tac := v.extractLsb' 0 3 }) ∧
    (s.registry.lookup a = some (.core .ifr) →
      busRead a s = .ok (0b111#3 ++ s.ifr) s ∧ busWrite a v s = { s with ifr := v.extractLsb' 0 5 }) ∧
    (s.registry.lookup a = some (.core .ie) →
      busRead a s = .ok s.ie s ∧
      (s.cfg.ieUpper = .stored → busWrite a v s = { s with ie := v }) ∧
      (s.cfg.ieUpper = .dropped → busWrite a v s = { s with ie := v &&& 0x1F }))

/-- R71, for the CORE's registers: "Registers with documented always-1 unused bits read back with those bits set regardless of
the byte written", and the stored bits read back as written. -/
def Obligations.AlwaysOneBits : Prop :=
  ∀ (s : State) (a : Word) (v : Byte), inWindow s.cfg a = true →
    (s.registry.lookup a = some (.core .tac) → busRead a (busWrite a v s) = .ok (v ||| 0xF8) (busWrite a v s)) ∧
    (s.registry.lookup a = some (.core .ifr) → busRead a (busWrite a v s) = .ok (v ||| 0xE0) (busWrite a v s))

/-- R83, R85, on plain memory: a byte written by a write M-cycle is what the next read of that address answers, and every other
plain address reads as before. -/
def Obligations.ReadAfterWrite : Prop :=
  ∀ (s : State) (a b : Word) (v : Byte), s.flat.wf = true → plainAt s a = true → plainAt s b = true →
    busRead b (memWrite a v s) = .ok (if b = a then v else s.flat.read b) (memWrite a v s) ∧
    (memWrite a v s).flat.wf = true

/-- R74, R75: one M-cycle of either order; with access-then-tick (the default) the access is made in the state before the tick,
with tick-then-access in the state after it. That a read which raises has ticked there first is the model's reading (log 12). -/
def Obligations.AccessPhase : Prop :=
  ∀ (s : State) (a : Word) (v : Byte),
    (s.cfg.accessPhase = .accessThenTick →
      memWrite a v s = tick (busWrite a v s) ∧ ∀ x u, busRead a s = .ok x u → memRead a s = .ok x (tick u)) ∧
    (s.cfg.accessPhase = .tickThenAccess →
      memWrite a v s = busWrite a v (tick s) ∧ memRead a s = busRead a (tick s))

/-- R78, R160, R161: on plain memory a pop after a push gives the pushed word back, with `sp` as before, four M-cycles later, and
the low byte at the lower address. -/
def Obligations.PopAfterPush : Prop :=
  ∀ (s : State) (v : Word),
    s.flat.wf = true → plainAt s (s.sp - 1) = true → plainAt s (s.sp - 2) = true →
    pop16 (push16 v s) =
      .ok v { ticks 4 s with flat := (s.flat.write (s.sp - 1) (v.extractLsb' 8 8)).write (s.sp - 2) (v.extractLsb' 0 8) }

/-! ### The timer (spec/60_exceptions.md section 5) -/

/-- R340, in the order of D16: a pending reload is applied first, then the divider advances, then the falling edge of the
selected bit is evaluated, then the cycles are counted and the environment is notified. -/
def Obligations.TickEffect : Prop :=
  ∀ s : State, ∃ r e,
    r = (if s.reloadPending then { s with tima := s.tma, ifr := s.ifr ||| 0b00100, reloadPending := false } else s) ∧
    e =
      (if s.counter.getLsbD (tacSelectedBit s) = true ∧ (s.counter + 4).getLsbD (tacSelectedBit s) = false ∧
          s.tac.getLsbD 2 = true then
        { r with
          counter := s.counter + 4, tima := r.tima + 1
          reloadPending := decide (r.tima = 0xFF) || r.reloadPending, cycles := s.cycles + 4 }
      else { r with counter := s.counter + 4, cycles := s.cycles + 4 }) ∧
    tick s = notify 4 e ∧ (s.cfg.platform = .flat → tick s = e) ∧
    tick s = { e with ifr := (tick s).ifr, env := (tick s).env }

/-- R341: TIMA counts modulo 256 and its wrap to 0 marks the reload; IF and TMA are not touched, and with TAC[2] = 0 no
edge counts. -/
def Obligations.TimaCountsAndWraps : Prop :=
  ∀ (s : State) (old new : Word),
    (s.tima ≠ 0xFF → incrementTima s = { s with tima := s.tima + 1 }) ∧
    (s.tima = 0xFF → incrementTima s = { s with tima := 0x00, reloadPending := true }) ∧
    (s.tac.getLsbD 2 = false → timerEdge old new s = s)

/-- R344, whole: a write to DIV, whatever its value, sets the divider to 0 through the edge path: with the timer enabled and the
selected bit 1 it increments TIMA once; otherwise it only clears the divider. -/
def Obligations.DivWriteResetsDivider : Prop :=
  ∀ (s : State) (a : Word) (v : Byte), inWindow s.cfg a = true → s.registry.lookup a = some (.core .div) →
    (s.tac.getLsbD 2 = true → s.counter.getLsbD (tacSelectedBit s) = true →
      busWrite a v s = incrementTima { s with counter := 0 }) ∧
    (s.tac.getLsbD 2 = false ∨ s.counter.getLsbD (tacSelectedBit s) = false → busWrite a v s = { s with counter := 0 })

/-- R347, with the default TAC_BIT table: DIV, the high byte of the divider, goes up by one every 64 M-cycles and the divider is
where it was after 16384; with the timer enabled and no wrap coming, TIMA goes up by one in the period of the clock select, 256,
4, 16 or 64 M-cycles, from every phase of the divider. -/
def Obligations.TimerRates : Prop :=
  ∀ s : State,
    (ticks 64 s).counter.extractLsb' 8 8 = s.counter.extractLsb' 8 8 + 1 ∧ (ticks 16384 s).counter = s.counter ∧
    (s.cfg.tacBit = Params.tacBit → s.tac.getLsbD 2 = true → s.reloadPending = false → s.tima ≠ 0xFF →
      (ticks (match s.tac.getLsbD 1, s.tac.getLsbD 0 with
        | false, false => 256
        | false, true => 4
        | true, false => 16
        | true, true => 64) s).tima = s.tima + 1)

/-! ### Results, completion and frames of the instructions -/

/-- R180, whole, and R183 to R188: ADD and ADC in their three operand forms complete with the sum, Z, N, H and C as `Add8` gives
them; nothing but A and the flags changes (and one M-cycle passes for the byte at HL). -/
def Obligations.AddAdcResults : Prop :=
  OperandForms .addAR .addAN .addAHl (fun u v t =>
    WritesAccFlags u t ∧ t.a.toNat = (u.a.toNat + v.toNat) % 256 ∧
    FlagsAre t (decide ((u.a.toNat + v.toNat) % 256 = 0)) false (decide (15 < u.a.toNat % 16 + v.toNat % 16))
      (decide (255 < u.a.toNat + v.toNat))) ∧
  OperandForms .adcAR .adcAN .adcAHl (fun u v t =>
    WritesAccFlags u t ∧ t.a.toNat = (u.a.toNat + v.toNat + u.flagC.toNat) % 256 ∧
    FlagsAre t (decide ((u.a.toNat + v.toNat + u.flagC.toNat) % 256 = 0)) false
      (decide (15 < u.a.toNat % 16 + v.toNat % 16 + u.flagC.toNat))
      (decide (255 < u.a.toNat + v.toNat + u.flagC.toNat)))

/-- R181, R189 to R194: SUB and SBC in their three operand forms, with `Sub8`'s result and the borrows that the spec derives from
R180. -/
def Obligations.SubSbcResults : Prop :=
  OperandForms .subR .subN .subHl (fun u v t =>
    WritesAccFlags u t ∧ t.a.toNat = (u.a.toNat + 256 - v.toNat) % 256 ∧
    FlagsAre t (decide (u.a = v)) true (decide (u.a.toNat % 16 < v.toNat % 16)) (decide (u.a.toNat < v.toNat))) ∧
  OperandForms .sbcAR .sbcAN .sbcAHl (fun u v t =>
    WritesAccFlags u t ∧ t.a.toNat = (u.a.toNat + 512 - v.toNat - u.flagC.toNat) % 256 ∧
    FlagsAre t (decide (t.a = 0)) true (decide (u.a.toNat % 16 < v.toNat % 16 + u.flagC.toNat))
      (decide (u.a.toNat < v.toNat + u.flagC.toNat)))

/-- R204 to R206: CP sets the flags of the subtraction and writes no register: Z = 1 iff A = v, C = 1 iff A < v. -/
def Obligations.CompareResults : Prop :=
  OperandForms .cpR .cpN .cpHl (fun u v t =>
    WritesFlags u t ∧
    FlagsAre t (decide (u.a = v)) true (decide (u.a.toNat % 16 < v.toNat % 16)) (decide (u.a.toNat < v.toNat)))

/-- R195 to R203: AND, XOR and OR in their three operand forms, bit by bit, with their fixed N, H and C. -/
def Obligations.LogicResults : Prop :=
  OperandForms .andR .andN .andHl (fun u v t =>
    WritesAccFlags u t ∧ (∀ k, t.a.getLsbD k = (u.a.getLsbD k && v.getLsbD k)) ∧
    FlagsAre t (decide (t.a = 0)) false true false) ∧
  OperandForms .xorR .xorN .xorHl (fun u v t =>
    WritesAccFlags u t ∧ (∀ k, t.a.getLsbD k = (u.a.getLsbD k ^^ v.getLsbD k)) ∧
    FlagsAre t (decide (t.a = 0)) false false false) ∧
  OperandForms .orR .orN .orHl (fun u v t =>
    WritesAccFlags u t ∧ (∀ k, t.a.getLsbD k = (u.a.getLsbD k || v.getLsbD k)) ∧
    FlagsAre t (decide (t.a = 0)) false false false)

/-- R207 to R210: INC and DEC of a register and of the byte at HL: the result modulo 256, Z, N and H, with C as it was; of the
byte at HL the read and the write are two M-cycles. -/
def Obligations.IncDecResults : Prop :=
  ∀ s : State,
    (∀ r, ∃ t, exec (.incR r) s = .next t ∧ WritesRegFlags r s t ∧ (t.r8 r).toNat = ((s.r8 r).toNat + 1) % 256 ∧
      FlagsAre t (decide (s.r8 r = 0xFF)) false (decide ((s.r8 r).toNat % 16 = 15)) s.flagC) ∧
    (∀ r, ∃ t, exec (.decR r) s = .next t ∧ WritesRegFlags r s t ∧ (t.r8 r).toNat = ((s.r8 r).toNat + 255) % 256 ∧
      FlagsAre t (decide (s.r8 r = 0x01)) true (decide ((s.r8 r).toNat % 16 = 0)) s.flagC) ∧
    (readable s.hl s = true →
      (∃ v u m t, exec .incHl s = .next t ∧ Reads s.hl s v u ∧ Stores s.hl (v + 1) u m ∧ WritesFlags m t ∧
        FlagsAre t (decide (v = 0xFF)) false (decide (v.toNat % 16 = 15)) s.flagC) ∧
      (∃ v u m t, exec .decHl s = .next t ∧ Reads s.hl s v u ∧ Stores s.hl (v - 1) u m ∧ WritesFlags m t ∧
        FlagsAre t (decide (v = 0x01)) true (decide (v.toNat % 16 = 0)) s.flagC))

/-- R211: DAA completes; A is adjusted by the two tests on the original A, N is kept, H is 0, Z is of the new A, and C is set by
a decimal carry and never cleared. -/
def Obligations.DaaResult : Prop :=
  ∀ s : State, ∃ t, exec .daa s = .next t ∧ WritesAccFlags s t ∧
    t.a.toNat =
      (if s.flagN = true then
        s.a.toNat + 512 - (if s.flagH = true then 0x06 else 0) - (if s.flagC = true then 0x60 else 0)
      else
        s.a.toNat + (if s.flagH = true ∨ 9 < s.a.toNat % 16 then 0x06 else 0) +
          (if s.flagC = true ∨ 0x99 < s.a.toNat then 0x60 else 0)) % 256 ∧
    FlagsAre t (decide (t.a = 0)) s.flagN false (s.flagC || (!s.flagN && decide (0x99 < s.a.toNat)))

/-- R211, the document's property: for all a and b in 0..99, ADD of their BCD codes and then DAA yields the BCD code of
(a + b) mod 100, with C = 1 exactly when the sum is 100 or more. -/
def Obligations.DaaMakesBcdSum : Prop :=
  ∀ (s : State) (x y : Nat), x < 100 → y < 100 → s.a = BitVec.ofNat 8 (x / 10 * 16 + x % 10) →
    ∃ u t,
      exec (.addAN (BitVec.ofNat 8 (y / 10 * 16 + y % 10))) s = .next u ∧ exec .daa u = .next t ∧
      t.a = BitVec.ofNat 8 ((x + y) % 100 / 10 * 16 + (x + y) % 10) ∧ t.flagC = decide (100 ≤ x + y)

/-- R212 to R214: CPL, SCF and CCF. -/
def Obligations.ComplementAndCarryResults : Prop :=
  ∀ s : State,
    (∃ t, exec .cpl s = .next t ∧ WritesAccFlags s t ∧ t.a.toNat = 255 - s.a.toNat ∧ FlagsAre t s.flagZ true true s.flagC) ∧
    (∃ t, exec .scf s = .next t ∧ WritesFlags s t ∧ FlagsAre t s.flagZ false false true) ∧
    (∃ t, exec .ccf s = .next t ∧ WritesFlags s t ∧ FlagsAre t s.flagZ false false (!s.flagC))

/-- R130 to R132, R135, R136, R139, R141, R143, R145, R146: the loads of a register, from a register, an immediate, or the byte
that the read M-cycle at the named address answers; no flag changes. -/
def Obligations.RegisterLoads : Prop :=
  ∀ s : State,
    (∀ r r' v, (s.setR8 r v).r8 r' = if r' = r then v else s.r8 r') ∧
    (∀ r v, ∃ t, s.setR8 r v = t ∧ t = { s with a := t.a, b := t.b, c := t.c, d := t.d, e := t.e, h := t.h, l := t.l }) ∧
    (∀ r r', exec (.ldRR r r') s = .next (s.setR8 r (s.r8 r'))) ∧
    (∀ r n, exec (.ldRN r n) s = .next (s.setR8 r n)) ∧
    (readable s.hl s = true → ∃ v u, Reads s.hl s v u ∧
      (∀ r, exec (.ldRHl r) s = .next (u.setR8 r v)) ∧
      (∃ t, exec .ldAHli s = .next t ∧ t = { u with a := v, h := t.h, l := t.l } ∧ t.hl = s.hl + 1) ∧
      (∃ t, exec .ldAHld s = .next t ∧ t = { u with a := v, h := t.h, l := t.l } ∧ t.hl = s.hl - 1)) ∧
    (readable s.bc s = true → ∃ v u, Reads s.bc s v u ∧ exec .ldABc s = .next { u with a := v }) ∧
    (readable s.de s = true → ∃ v u, Reads s.de s v u ∧ exec .ldADe s = .next { u with a := v }) ∧
    (∀ nn, readable nn s = true → ∃ v u, Reads nn s v u ∧ exec (.ldANn nn) s = .next { u with a := v }) ∧
    (∀ a, a.toNat = 0xFF00 + s.c.toNat → readable a s = true →
      ∃ v u, Reads a s v u ∧ exec .ldhAC s = .next { u with a := v }) ∧
    (∀ n a, a.toNat = 0xFF00 + n.toNat → readable a s = true →
      ∃ v u, Reads a s v u ∧ exec (.ldhAN n) s = .next { u with a := v })

/-- R133, R134, R137, R138, R140, R142, R144, R147, R148: the byte stores, each one write M-cycle at the named address; no
register but HL in the last two, and no flag, changes. -/
def Obligations.ByteStores : Prop :=
  ∀ s : State,
    (∀ r, ∃ t, exec (.ldHlR r) s = .next t ∧ Stores s.hl (s.r8 r) s t) ∧
    (∀ n, ∃ t, exec (.ldHlN n) s = .next t ∧ Stores s.hl n s t) ∧
    (∃ t, exec .ldBcA s = .next t ∧ Stores s.bc s.a s t) ∧
    (∃ t, exec .ldDeA s = .next t ∧ Stores s.de s.a s t) ∧
    (∀ nn, ∃ t, exec (.ldNnA nn) s = .next t ∧ Stores nn s.a s t) ∧
    (∀ a, a.toNat = 0xFF00 + s.c.toNat → ∃ t, exec .ldhCA s = .next t ∧ Stores a s.a s t) ∧
    (∀ n a, a.toNat = 0xFF00 + n.toNat → ∃ t, exec (.ldhNA n) s = .next t ∧ Stores a s.a s t) ∧
    (∃ u t, exec .ldHliA s = .next t ∧ Stores s.hl s.a s u ∧ t = { u with h := t.h, l := t.l } ∧ t.hl = s.hl + 1) ∧
    (∃ u t, exec .ldHldA s = .next t ∧ Stores s.hl s.a s u ∧ t = { u with h := t.h, l := t.l } ∧ t.hl = s.hl - 1)

/-- R162 to R164: the 16-bit loads without flags: LD rr,nn, LD SP,HL after one internal M-cycle, LD (nn),SP with the low byte at
the lower address. -/
def Obligations.WordLoads : Prop :=
  ∀ (s : State) (nn : Word),
    exec (.ldRrNn .bc nn) s = .next { s with b := nn.extractLsb' 8 8, c := nn.extractLsb' 0 8 } ∧
    exec (.ldRrNn .de nn) s = .next { s with d := nn.extractLsb' 8 8, e := nn.extractLsb' 0 8 } ∧
    exec (.ldRrNn .hl nn) s = .next { s with h := nn.extractLsb' 8 8, l := nn.extractLsb' 0 8 } ∧
    exec (.ldRrNn .sp nn) s = .next { s with sp := nn } ∧
    (∃ t, exec .ldSpHl s = .next t ∧ Waits 1 { s with sp := s.hl } t) ∧
    (∃ u t, exec (.ldNnSp nn) s = .next t ∧ Stores nn (s.sp.extractLsb' 0 8) s u ∧
      Stores (nn + 1) (s.sp.extractLsb' 8 8) u t)

/-- R166, R167: PUSH of BC, DE, HL and of A with F masked by 0xF0 (the form of R166 with AF, which no byte decodes to, pushes the
same): one internal M-cycle, then the two writes; `sp` is 2 lower and no other register changes. -/
def Obligations.PushResults : Prop :=
  ∀ s : State,
    (∀ qq, ∃ u t, exec (.pushQq qq) s = .next t ∧ Waits 1 s u ∧ Pushes (s.stk qq) u t ∧
      t.cpu = { s.cpu with sp := s.sp - 2 }) ∧
    (∃ u t, exec .pushAf s = .next t ∧ Waits 1 s u ∧ Pushes (s.a ++ (s.f &&& 0xF0)) u t ∧
      t.cpu = { s.cpu with sp := s.sp - 2 })

/-- R168, R169: POP of BC, DE, HL and of AF, where F takes the low byte masked by 0xF0: two reads; `sp` is 2 higher and no other
register changes. -/
def Obligations.PopResults : Prop :=
  ∀ s : State, poppable s = true → ∃ v u, Pops s v u ∧
    exec (.popQq .bc) s = .next { u with b := v.extractLsb' 8 8, c := v.extractLsb' 0 8 } ∧
    exec (.popQq .de) s = .next { u with d := v.extractLsb' 8 8, e := v.extractLsb' 0 8 } ∧
    exec (.popQq .hl) s = .next { u with h := v.extractLsb' 8 8, l := v.extractLsb' 0 8 } ∧
    exec .popAf s = .next { u with a := v.extractLsb' 8 8, f := v.extractLsb' 0 8 &&& 0xF0 }

/-- R27: "PUSH AF then POP AF: low nibble of F is 0 after POP regardless of what was pushed": PUSH qq then POP AF, in plain
memory, from any state. -/
def Obligations.PopAfLowNibbleZero : Prop :=
  ∀ (s u t : State) (i : Instr),
    (i = .pushAf ∨ ∃ qq, i = .pushQq qq) → exec i s = .next u → exec .popAf u = .next t → t.faulted = none →
    t.f &&& 0x0F = 0

/-- R221 to R223: ADD HL,rr with the carries out of bits 11 and 15 and Z kept; INC rr and DEC rr modulo 65536 with no flag; one
internal M-cycle each. -/
def Obligations.WordArithmetic : Prop :=
  ∀ (s : State) (rr : Reg16),
    (∃ w t, exec (.addHlRr rr) s = .next t ∧ Waits 1 w t ∧ w = { s with f := w.f, h := w.h, l := w.l } ∧
      w.hl.toNat = (s.hl.toNat + (s.r16 rr).toNat) % 65536 ∧ w.f &&& 0x0F = s.f &&& 0x0F ∧
      FlagsAre w s.flagZ false (decide (0x0FFF < s.hl.toNat % 4096 + (s.r16 rr).toNat % 4096))
        (decide (0xFFFF < s.hl.toNat + (s.r16 rr).toNat))) ∧
    (∃ w t, exec (.incRr rr) s = .next t ∧ Waits 1 w t ∧ w = s.setR16 rr (w.r16 rr) ∧
      (w.r16 rr).toNat = ((s.r16 rr).toNat + 1) % 65536) ∧
    (∃ w t, exec (.decRr rr) s = .next t ∧ Waits 1 w t ∧ w = s.setR16 rr (w.r16 rr) ∧
      (w.r16 rr).toNat = ((s.r16 rr).toNat + 65535) % 65536)

/-- R220, R224, R165: ADD SP,e and LD HL,SP+e: the signed sum modulo 65536, Z = N = 0, H and C out of the low byte with the
displacement as an unsigned byte; two and one internal M-cycles. -/
def Obligations.StackPointerPlusByte : Prop :=
  ∀ (s : State) (e : Byte),
    (∃ w t, exec (.addSpE e) s = .next t ∧ Waits 2 w t ∧ w = { s with f := w.f, sp := w.sp } ∧
      (w.sp.toNat : Int) = ((s.sp.toNat : Int) + e.toInt) % 65536 ∧ w.f &&& 0x0F = s.f &&& 0x0F ∧
      FlagsAre w false false (decide (15 < s.sp.toNat % 16 + e.toNat % 16)) (decide (255 < s.sp.toNat % 256 + e.toNat))) ∧
    (∃ w t, exec (.ldHlSpE e) s = .next t ∧ Waits 1 w t ∧ w = { s with f := w.f, h := w.h, l := w.l } ∧
      (w.hl.toNat : Int) = ((s.sp.toNat : Int) + e.toInt) % 65536 ∧ w.f &&& 0x0F = s.f &&& 0x0F ∧
      FlagsAre w false false (decide (15 < s.sp.toNat % 16 + e.toNat % 16)) (decide (255 < s.sp.toNat % 256 + e.toNat)))

/-- R230 to R233: the accumulator rotates, with the arithmetic of their CB-page namesakes but Z = 0 whatever the result. -/
def Obligations.AccumulatorRotates : Prop :=
  ∀ s : State,
    (∃ t, exec .rlca s = .next t ∧ WritesAccFlags s t ∧ t.a.toNat = 2 * s.a.toNat % 256 + s.a.toNat / 128 ∧
      FlagsAre t false false false (decide (128 ≤ s.a.toNat))) ∧
    (∃ t, exec .rrca s = .next t ∧ WritesAccFlags s t ∧ t.a.toNat = s.a.toNat / 2 + 128 * (s.a.toNat % 2) ∧
      FlagsAre t false false false (decide (s.a.toNat % 2 = 1))) ∧
    (∃ t, exec .rla s = .next t ∧ WritesAccFlags s t ∧ t.a.toNat = 2 * s.a.toNat % 256 + s.flagC.toNat ∧
      FlagsAre t false false false (decide (128 ≤ s.a.toNat))) ∧
    (∃ t, exec .rra s = .next t ∧ WritesAccFlags s t ∧ t.a.toNat = s.a.toNat / 2 + 128 * s.flagC.toNat ∧
      FlagsAre t false false false (decide (s.a.toNat % 2 = 1)))

/-- R234 to R250: the eight CB-page rotates and shifts, on a register and on the byte at HL: the result and C of the table, Z of
the result, N = H = 0. -/
def Obligations.RotatesAndShifts : Prop :=
  ∀ row ∈ rotTable, ∀ s : State,
    (∀ r, ∃ t, exec (row.onReg r) s = .next t ∧ WritesRegFlags r s t ∧
      (t.r8 r).toNat = row.result (s.r8 r).toNat s.flagC.toNat ∧
      FlagsAre t (decide (t.r8 r = 0)) false false (row.carry (s.r8 r).toNat)) ∧
    (readable s.hl s = true → ∃ v u w m t, exec row.onHl s = .next t ∧ Reads s.hl s v u ∧
      w.toNat = row.result v.toNat s.flagC.toNat ∧ Stores s.hl w u m ∧ WritesFlags m t ∧
      FlagsAre t (decide (w = 0)) false false (row.carry v.toNat))

/-- R251 to R256: BIT tests bit b into Z with N = 0, H = 1 and C kept, and writes nothing; RES and SET change bit b alone and no
flag. -/
def Obligations.BitInstructions : Prop :=
  ∀ (s : State) (b : BitVec 3),
    (∀ r, ∃ t, exec (.bitBR b r) s = .next t ∧ WritesFlags s t ∧ FlagsAre t (!(s.r8 r).getLsbD b.toNat) false true s.flagC) ∧
    (∀ r, ∃ t, exec (.resBR b r) s = .next t ∧ t = s.setR8 r (t.r8 r) ∧
      ∀ k, (t.r8 r).getLsbD k = ((s.r8 r).getLsbD k && decide (k ≠ b.toNat))) ∧
    (∀ r, ∃ t, exec (.setBR b r) s = .next t ∧ t = s.setR8 r (t.r8 r) ∧
      ∀ k, (t.r8 r).getLsbD k = ((s.r8 r).getLsbD k || decide (k = b.toNat))) ∧
    (readable s.hl s = true → ∃ v u, Reads s.hl s v u ∧
      (∃ t, exec (.bitBHl b) s = .next t ∧ WritesFlags u t ∧ FlagsAre t (!v.getLsbD b.toNat) false true s.flagC) ∧
      (∃ w t, exec (.resBHl b) s = .next t ∧ Stores s.hl w u t ∧
        ∀ k, w.getLsbD k = (v.getLsbD k && decide (k ≠ b.toNat))) ∧
      (∃ w t, exec (.setBHl b) s = .next t ∧ Stores s.hl w u t ∧
        ∀ k, w.getLsbD k = (v.getLsbD k || decide (k = b.toNat))))

/-- R107, R260, R261, R263 to R265: the four conditions; then, with the self-jump check off or the target not the jump's own address: `pc` is the target after
one internal M-cycle (none for JP HL), and a jump not taken changes nothing. -/
def Obligations.JumpResults : Prop :=
  ∀ (s : State) (nn : Word) (e : Byte) (cc : Cond),
    (s.cond .nz = !s.f.getLsbD 7) ∧ (s.cond .z = s.f.getLsbD 7) ∧ (s.cond .nc = !s.f.getLsbD 4) ∧
    (s.cond .c = s.f.getLsbD 4) ∧
    exec .jpHl s = .next { s with pc := s.hl } ∧
    (s.cond cc = false → exec (.jpCcNn cc nn) s = .next s ∧ exec (.jrCcE cc e) s = .next s) ∧
    (s.cfg.selfJumpCheck = false ∨ nn ≠ s.opaddr → ∃ t, Waits 1 { s with pc := nn } t ∧
      exec (.jpNn nn) s = .next t ∧ (s.cond cc = true → exec (.jpCcNn cc nn) s = .next t)) ∧
    (∀ target : Word, (target.toNat : Int) = ((s.pc.toNat : Int) + e.toInt) % 65536 →
      s.cfg.selfJumpCheck = false ∨ target ≠ s.opaddr → ∃ t, Waits 1 { s with pc := target } t ∧
        exec (.jrE e) s = .next t ∧ (s.cond cc = true → exec (.jrCcE cc e) s = .next t))

/-- R266, R267, R271: CALL, a taken CALL cc and RST: one internal M-cycle, the push of `pc`, then `pc` is the target; a CALL cc
not taken changes nothing. -/
def Obligations.CallResults : Prop :=
  ∀ (s : State) (nn : Word) (cc : Cond),
    (∃ u w, Waits 1 s u ∧ Pushes s.pc u w ∧ exec (.callNn nn) s = .next { w with pc := nn } ∧
      exec (.rst nn) s = .next { w with pc := nn } ∧
      (s.cond cc = true → exec (.callCcNn cc nn) s = .next { w with pc := nn }) ∧
      ({ w with pc := nn } : State).cpu = { s.cpu with sp := s.sp - 2, pc := nn }) ∧
    (s.cond cc = false → exec (.callCcNn cc nn) s = .next s)

/-- R268 to R270: RET, RET cc (one internal M-cycle before the test) and RETI: the popped word is the new `pc` after one more
M-cycle; RETI sets IME at once and leaves the EI delay alone. -/
def Obligations.ReturnResults : Prop :=
  ∀ (s : State) (cc : Cond),
    (poppable s = true → ∃ v u t, Pops s v u ∧ Waits 1 { u with pc := v } t ∧ exec .ret s = .next t ∧
      exec .reti s = .next { t with ime := true }) ∧
    (poppable s = true → s.cond cc = true → ∃ w v u t, Waits 1 s w ∧ Pops w v u ∧ Waits 1 { u with pc := v } t ∧
      exec (.retCc cc) s = .next t) ∧
    (s.cond cc = false → ∃ t, Waits 1 s t ∧ exec (.retCc cc) s = .next t)

/-- R280, R281, R283, R284: NOP does nothing; HALT with IME = 0 and an enabled source pending sets the halt bug, otherwise it
halts; DI clears IME; EI sets the delay bit and not IME. -/
def Obligations.SystemInstructions : Prop :=
  ∀ s : State,
    exec .nop s = .next s ∧
    (s.ime = false → s.ie.setWidth 5 &&& s.ifr ≠ 0 → exec .halt s = .next { s with haltBug := true }) ∧
    (s.ime = true ∨ s.ie.setWidth 5 &&& s.ifr = 0 → exec .halt s = .next { s with halted := true }) ∧
    exec .di s = .next { s with ime := false } ∧
    exec .ei s = .next { s with eiDelay := true }

/-! ### Rules of the whole machine -/

/-- R29, R32, R33, R34: the interrupt and power-state bits are written by DI, RETI, EI and HALT alone: any other instruction
leaves all four as they are. -/
def Obligations.InterruptStateWriters : Prop :=
  ∀ (i : Instr) (s t : State), exec i s = .next t →
    (i ≠ .di → i ≠ .reti → t.ime = s.ime) ∧ (i ≠ .ei → t.eiDelay = s.eiDelay) ∧
    (i ≠ .halt → t.halted = s.halted ∧ t.haltBug = s.haltBug)

/-- R30, "Only the CPU's bus writes change IE": an instruction that makes no write M-cycle leaves IE, TMA, TAC and every byte of
`flat` alone. -/
def Obligations.NonStoresKeepMemory : Prop :=
  ∀ (i : Instr) (s t : State), exec i s = .next t → writesBus i s = false →
    t.flat = s.flat ∧ t.ie = s.ie ∧ t.tma = s.tma ∧ t.tac = s.tac

/-- R116, R380: a step that fetches an instruction in plain memory and raises no fault takes four T-cycles for each M-cycle of
the table: taken or not taken as the condition holds. -/
def Obligations.StepTiming : Prop :=
  ∀ (s u t : State) (i : Instr) (n : Nat),
    s.faulted = none → stepEntry s = .fetch u →
    decode (u.flat.read u.pc :: bytesFrom u.flat (if u.haltBug then u.pc else u.pc + 1) n) = .ok (i, []) →
    plainAt u u.pc = true →
    (∀ k, k < n → plainAt u ((if u.haltBug then u.pc else u.pc + 1) + BitVec.ofNat 16 k) = true) →
    step s = .next t → t.faulted = none → t.cycles = s.cycles + 4 * mcycles i (taken i s)

/-- R45, R351: `cycles` is unreadable: a step from a state with another count does the same in everything else. -/
def Obligations.CyclesAreUnreadable : Prop :=
  ∀ (s t : State) (k : Nat), step s = .next t →
    step { s with cycles := s.cycles + k } = .next { t with cycles := t.cycles + k }

/-- R380: "no register, flag or memory result of any instruction depends on it otherwise" (on the ticks): where the data bytes
an instruction reads are plain memory, two states that differ in the timer, in TMA, TAC, IE, IF and the count, but not in what is
pending, agree after it in the CPU engine's part, in memory and in the environment. -/
def Obligations.TimerDoesNotLeak : Prop :=
  ∀ (i : Instr) (s s' t t' : State),
    s.cpu = s'.cpu → s.flat = s'.flat → s.env = s'.env → SameConstruction s s' → pending s = pending s' →
    (∀ a ∈ dataReads i s, plainAt s a = true) →
    exec i s = .next t → exec i s' = .next t' → t.cpu = t'.cpu ∧ t.flat = t'.flat ∧ t.env = t'.env

/-! ### Between steps (spec/70_reset_and_hazards.md section 4) -/

/-- R372, R379, R324: loading what was saved gives the machine back, from whatever it has become since in a machine of the same
construction, but for the count of cycles and the two report fields, which stay those of the machine loaded into (the model's
choice: log 11); a faulted machine saves nothing; a failed load changes nothing. -/
def Obligations.SnapshotRoundTrip : Prop :=
  (∀ (s t : State) (p : Snapshot), save s = some p → SameConstruction s t →
    load p t = { s with cycles := t.cycles, curOp := t.curOp, opaddr := t.opaddr }) ∧
  (∀ s : State, (save s).isSome = s.faulted.isNone) ∧
  (∀ s : State, tryLoad none s = s)

/-- R70: at construction an address gets at most one handler; a second attachment, to a CORE register too, is ill-formed. -/
def Obligations.OneHandlerPerAddress : Prop :=
  (∀ (registry todo r : List (Word × Handler)) (a : Word) (h : Handler),
    registry.lookup a = some h → attachAll registry todo = some r → r.lookup a = some h ∧ ∀ h', (a, h') ∉ todo) ∧
  ∀ (p : ResetProfile) (cfg : Config) (peripherals : List Word) (image : List (Word × Byte)) (env : Nat) (a : Word),
    a ∈ [0xFF04#16, 0xFF05, 0xFF06, 0xFF07, 0xFF0F, 0xFFFF] → a ∈ peripherals →
    construct p cfg Params.regAddr peripherals image env = none
end

