-- ==== Sys2Proof/Laws/Memory.lean ====
section
/-! SUPPORT. The basic laws of `flat`: a read after a write, and that writing keeps the canonical form. -/

namespace Sys2Proof.Machine

theorem Memory.wfFrom_mono {lo lo' : Nat} (h : lo' ≤ lo) {m : Memory} (hm : m.wfFrom lo = true) : m.wfFrom lo' = true := by
  cases m with
  | nil => rfl
  | cons x rest =>
    simp only [Memory.wfFrom, Bool.and_eq_true, decide_eq_true_eq] at hm ⊢
    exact ⟨⟨⟨by omega, hm.1.1.2⟩, hm.1.2⟩, hm.2⟩

/-- An address below every cell reads as blank. -/
theorem Memory.readAt_of_lt {lo k : Nat} {m : Memory} (hm : m.wfFrom lo = true) (hk : k < lo) : m.readAt k = Memory.blank := by
  induction m generalizing lo with
  | nil => rfl
  | cons x rest ih =>
    simp only [Memory.wfFrom, Bool.and_eq_true, decide_eq_true_eq] at hm
    simp only [Memory.readAt, show ¬ x.1 = k by omega, if_false]
    exact ih hm.2 (by omega)

theorem Memory.readAt_writeAt_same {lo : Nat} {m : Memory} (hm : m.wfFrom lo = true) (k : Nat) (v : Byte) :
    (m.writeAt k v).readAt k = v := by
  induction m generalizing lo with
  | nil => by_cases hv : v = Memory.blank <;> simp [Memory.writeAt, Memory.readAt, hv]
  | cons x rest ih =>
    simp only [Memory.wfFrom, Bool.and_eq_true, decide_eq_true_eq] at hm
    unfold Memory.writeAt
    split
    · split
      · next hlt hv =>
        simp only [Memory.readAt, show ¬ x.1 = k by omega, if_false, hv]
        exact Memory.readAt_of_lt hm.2 (by omega)
      · simp [Memory.readAt]
    · split
      · next hlt heq =>
        split
        · next hv => rw [hv]; exact Memory.readAt_of_lt hm.2 (by omega)
        · simp [Memory.readAt]
      · next hlt hne =>
        simp only [Memory.readAt, show ¬ x.1 = k by omega, if_false]
        exact ih hm.2

theorem Memory.readAt_writeAt_ne {m : Memory} {k j : Nat} (hjk : j ≠ k) (v : Byte) :
    (m.writeAt k v).readAt j = m.readAt j := by
  induction m with
  | nil => by_cases hv : v = Memory.blank <;> simp [Memory.writeAt, Memory.readAt, hv, Ne.symm hjk]
  | cons x rest ih =>
    unfold Memory.writeAt
    split
    · split
      · rfl
      · simp [Memory.readAt, Ne.symm hjk]
    · split
      · next heq =>
        split <;> simp [Memory.readAt, ← heq, Ne.symm hjk]
      · simp only [Memory.readAt, ih]

theorem Memory.wfFrom_writeAt {lo : Nat} {m : Memory} (hm : m.wfFrom lo = true) {k : Nat} (hlo : lo ≤ k) (hk : k < 65536)
    (v : Byte) : (m.writeAt k v).wfFrom lo = true := by
  induction m generalizing lo with
  | nil => by_cases hv : v = Memory.blank <;> simp [Memory.writeAt, Memory.wfFrom, hv, hlo, hk]
  | cons x rest ih =>
    have hm0 := hm
    simp only [Memory.wfFrom, Bool.and_eq_true, decide_eq_true_eq] at hm
    unfold Memory.writeAt
    split
    · next hlt =>
      split
      · exact hm0
      · next hv =>
        simp only [Memory.wfFrom, Bool.and_eq_true, decide_eq_true_eq]
        exact ⟨⟨⟨hlo, hk⟩, hv⟩, ⟨⟨by omega, hm.1.1.2⟩, hm.1.2⟩, hm.2⟩
    · split
      · next hlt heq =>
        split
        · exact Memory.wfFrom_mono (by omega) hm.2
        · next hv =>
          simp only [Memory.wfFrom, Bool.and_eq_true, decide_eq_true_eq]
          exact ⟨⟨⟨hlo, hk⟩, hv⟩, heq ▸ hm.2⟩
      · next hlt hne =>
        simp only [Memory.wfFrom, Bool.and_eq_true, decide_eq_true_eq]
        exact ⟨hm.1, ih hm.2 (by omega)⟩

/-- The canonical form makes equal memories equal data: two canonical memories that read alike are the same list. -/
theorem Memory.wfFrom_ext {lo : Nat} {m m' : Memory} (hm : m.wfFrom lo = true) (hm' : m'.wfFrom lo = true)
    (h : ∀ k, m.readAt k = m'.readAt k) : m = m' := by
  induction m generalizing lo m' with
  | nil =>
    cases m' with
    | nil => rfl
    | cons y r' =>
      simp only [Memory.wfFrom, Bool.and_eq_true, decide_eq_true_eq] at hm'
      have := h y.1
      simp only [Memory.readAt, if_true] at this
      exact absurd this.symm hm'.1.2
  | cons x r ih =>
    cases m' with
    | nil =>
      simp only [Memory.wfFrom, Bool.and_eq_true, decide_eq_true_eq] at hm
      have := h x.1
      simp only [Memory.readAt, if_true] at this
      exact absurd this hm.1.2
    | cons y r' =>
      simp only [Memory.wfFrom, Bool.and_eq_true, decide_eq_true_eq] at hm hm'
      have hxy : x.1 = y.1 := by
        rcases Nat.lt_trichotomy x.1 y.1 with hlt | heq | hgt
        · have h1 := h x.1
          simp only [Memory.readAt, if_true, show ¬ y.1 = x.1 by omega, if_false] at h1
          exact absurd (h1.trans (Memory.readAt_of_lt hm'.2 (by omega))) hm.1.2
        · exact heq
        · have h1 := h y.1
          simp only [Memory.readAt, if_true, show ¬ x.1 = y.1 by omega, if_false] at h1
          exact absurd (h1.symm.trans (Memory.readAt_of_lt hm.2 (by omega))) hm'.1.2
      have hv : x.2 = y.2 := by
        have h1 := h x.1
        simpa [Memory.readAt, hxy] using h1
      have hr : r = r' := by
        refine ih hm.2 (hxy ▸ hm'.2) fun k => ?_
        by_cases hk : x.1 = k
        · rw [Memory.readAt_of_lt hm.2 (by omega), Memory.readAt_of_lt hm'.2 (by omega)]
        · have h1 := h k
          simpa [Memory.readAt, hk, show ¬ y.1 = k by omega] using h1
      rw [hr, show x = y from Prod.ext hxy hv]

/-! ### At addresses -/

theorem Memory.read_write_same {m : Memory} (hm : m.wf = true) (a : Word) (v : Byte) : (m.write a v).read a = v :=
  Memory.readAt_writeAt_same hm a.toNat v

theorem Memory.read_write_ne {m : Memory} {a b : Word} (h : b ≠ a) (v : Byte) : (m.write a v).read b = m.read b :=
  Memory.readAt_writeAt_ne (fun hab => h (BitVec.eq_of_toNat_eq hab)) v

/-- Every write keeps the canonical form. -/
theorem Memory.wf_write {m : Memory} (hm : m.wf = true) (a : Word) (v : Byte) : (m.write a v).wf = true :=
  Memory.wfFrom_writeAt hm (Nat.zero_le _) a.isLt v

theorem Memory.wf_nil : Memory.wf [] = true := rfl

end Sys2Proof.Machine
end

