-- ==== Sys2Proof/Laws/State.lean ====
section
/-! SUPPORT. One lemma per field per update of the state: what each named update leaves alone, and what it writes. -/

namespace Sys2Proof.Machine

variable (s : State)

/-! ### `setFlags` -/

@[simp] theorem State.setFlags_a (z n h c : Bool) : (State.setFlags s z n h c).a = s.a := rfl
@[simp] theorem State.setFlags_f (z n h c : Bool) : (State.setFlags s z n h c).f = (s.f &&& 0x0F) ||| packFlags z n h c := rfl
@[simp] theorem State.setFlags_b (z n h c : Bool) : (State.setFlags s z n h c).b = s.b := rfl
@[simp] theorem State.setFlags_c (z n h c : Bool) : (State.setFlags s z n h c).c = s.c := rfl
@[simp] theorem State.setFlags_d (z n h c : Bool) : (State.setFlags s z n h c).d = s.d := rfl
@[simp] theorem State.setFlags_e (z n h c : Bool) : (State.setFlags s z n h c).e = s.e := rfl
@[simp] theorem State.setFlags_h (z n h c : Bool) : (State.setFlags s z n h c).h = s.h := rfl
@[simp] theorem State.setFlags_l (z n h c : Bool) : (State.setFlags s z n h c).l = s.l := rfl
@[simp] theorem State.setFlags_sp (z n h c : Bool) : (State.setFlags s z n h c).sp = s.sp := rfl
@[simp] theorem State.setFlags_pc (z n h c : Bool) : (State.setFlags s z n h c).pc = s.pc := rfl
@[simp] theorem State.setFlags_ime (z n h c : Bool) : (State.setFlags s z n h c).ime = s.ime := rfl
@[simp] theorem State.setFlags_ie (z n h c : Bool) : (State.setFlags s z n h c).ie = s.ie := rfl
@[simp] theorem State.setFlags_ifr (z n h c : Bool) : (State.setFlags s z n h c).ifr = s.ifr := rfl
@[simp] theorem State.setFlags_eiDelay (z n h c : Bool) : (State.setFlags s z n h c).eiDelay = s.eiDelay := rfl
@[simp] theorem State.setFlags_halted (z n h c : Bool) : (State.setFlags s z n h c).halted = s.halted := rfl
@[simp] theorem State.setFlags_haltBug (z n h c : Bool) : (State.setFlags s z n h c).haltBug = s.haltBug := rfl
@[simp] theorem State.setFlags_counter (z n h c : Bool) : (State.setFlags s z n h c).counter = s.counter := rfl
@[simp] theorem State.setFlags_tima (z n h c : Bool) : (State.setFlags s z n h c).tima = s.tima := rfl
@[simp] theorem State.setFlags_tma (z n h c : Bool) : (State.setFlags s z n h c).tma = s.tma := rfl
@[simp] theorem State.setFlags_tac (z n h c : Bool) : (State.setFlags s z n h c).tac = s.tac := rfl
@[simp] theorem State.setFlags_reloadPending (z n h c : Bool) : (State.setFlags s z n h c).reloadPending = s.reloadPending := rfl
@[simp] theorem State.setFlags_registry (z n h c : Bool) : (State.setFlags s z n h c).registry = s.registry := rfl
@[simp] theorem State.setFlags_flat (z n h c : Bool) : (State.setFlags s z n h c).flat = s.flat := rfl
@[simp] theorem State.setFlags_faulted (z n h c : Bool) : (State.setFlags s z n h c).faulted = s.faulted := rfl
@[simp] theorem State.setFlags_cycles (z n h c : Bool) : (State.setFlags s z n h c).cycles = s.cycles := rfl
@[simp] theorem State.setFlags_cfg (z n h c : Bool) : (State.setFlags s z n h c).cfg = s.cfg := rfl
@[simp] theorem State.setFlags_env (z n h c : Bool) : (State.setFlags s z n h c).env = s.env := rfl
@[simp] theorem State.setFlags_curOp (z n h c : Bool) : (State.setFlags s z n h c).curOp = s.curOp := rfl
@[simp] theorem State.setFlags_opaddr (z n h c : Bool) : (State.setFlags s z n h c).opaddr = s.opaddr := rfl

/-! ### `setFlagsOf` -/

@[simp] theorem State.setFlagsOf_a (o : AluOut) : (State.setFlagsOf s o).a = s.a := rfl
@[simp] theorem State.setFlagsOf_f (o : AluOut) : (State.setFlagsOf s o).f = (s.f &&& 0x0F) ||| packFlags o.z o.n o.h o.c := rfl
@[simp] theorem State.setFlagsOf_b (o : AluOut) : (State.setFlagsOf s o).b = s.b := rfl
@[simp] theorem State.setFlagsOf_c (o : AluOut) : (State.setFlagsOf s o).c = s.c := rfl
@[simp] theorem State.setFlagsOf_d (o : AluOut) : (State.setFlagsOf s o).d = s.d := rfl
@[simp] theorem State.setFlagsOf_e (o : AluOut) : (State.setFlagsOf s o).e = s.e := rfl
@[simp] theorem State.setFlagsOf_h (o : AluOut) : (State.setFlagsOf s o).h = s.h := rfl
@[simp] theorem State.setFlagsOf_l (o : AluOut) : (State.setFlagsOf s o).l = s.l := rfl
@[simp] theorem State.setFlagsOf_sp (o : AluOut) : (State.setFlagsOf s o).sp = s.sp := rfl
@[simp] theorem State.setFlagsOf_pc (o : AluOut) : (State.setFlagsOf s o).pc = s.pc := rfl
@[simp] theorem State.setFlagsOf_ime (o : AluOut) : (State.setFlagsOf s o).ime = s.ime := rfl
@[simp] theorem State.setFlagsOf_ie (o : AluOut) : (State.setFlagsOf s o).ie = s.ie := rfl
@[simp] theorem State.setFlagsOf_ifr (o : AluOut) : (State.setFlagsOf s o).ifr = s.ifr := rfl
@[simp] theorem State.setFlagsOf_eiDelay (o : AluOut) : (State.setFlagsOf s o).eiDelay = s.eiDelay := rfl
@[simp] theorem State.setFlagsOf_halted (o : AluOut) : (State.setFlagsOf s o).halted = s.halted := rfl
@[simp] theorem State.setFlagsOf_haltBug (o : AluOut) : (State.setFlagsOf s o).haltBug = s.haltBug := rfl
@[simp] theorem State.setFlagsOf_counter (o : AluOut) : (State.setFlagsOf s o).counter = s.counter := rfl
@[simp] theorem State.setFlagsOf_tima (o : AluOut) : (State.setFlagsOf s o).tima = s.tima := rfl
@[simp] theorem State.setFlagsOf_tma (o : AluOut) : (State.setFlagsOf s o).tma = s.tma := rfl
@[simp] theorem State.setFlagsOf_tac (o : AluOut) : (State.setFlagsOf s o).tac = s.tac := rfl
@[simp] theorem State.setFlagsOf_reloadPending (o : AluOut) : (State.setFlagsOf s o).reloadPending = s.reloadPending := rfl
@[simp] theorem State.setFlagsOf_registry (o : AluOut) : (State.setFlagsOf s o).registry = s.registry := rfl
@[simp] theorem State.setFlagsOf_flat (o : AluOut) : (State.setFlagsOf s o).flat = s.flat := rfl
@[simp] theorem State.setFlagsOf_faulted (o : AluOut) : (State.setFlagsOf s o).faulted = s.faulted := rfl
@[simp] theorem State.setFlagsOf_cycles (o : AluOut) : (State.setFlagsOf s o).cycles = s.cycles := rfl
@[simp] theorem State.setFlagsOf_cfg (o : AluOut) : (State.setFlagsOf s o).cfg = s.cfg := rfl
@[simp] theorem State.setFlagsOf_env (o : AluOut) : (State.setFlagsOf s o).env = s.env := rfl
@[simp] theorem State.setFlagsOf_curOp (o : AluOut) : (State.setFlagsOf s o).curOp = s.curOp := rfl
@[simp] theorem State.setFlagsOf_opaddr (o : AluOut) : (State.setFlagsOf s o).opaddr = s.opaddr := rfl

/-! ### `setAcc` -/

@[simp] theorem State.setAcc_a (o : AluOut) : (State.setAcc s o).a = o.r := rfl
@[simp] theorem State.setAcc_f (o : AluOut) : (State.setAcc s o).f = (s.f &&& 0x0F) ||| packFlags o.z o.n o.h o.c := rfl
@[simp] theorem State.setAcc_b (o : AluOut) : (State.setAcc s o).b = s.b := rfl
@[simp] theorem State.setAcc_c (o : AluOut) : (State.setAcc s o).c = s.c := rfl
@[simp] theorem State.setAcc_d (o : AluOut) : (State.setAcc s o).d = s.d := rfl
@[simp] theorem State.setAcc_e (o : AluOut) : (State.setAcc s o).e = s.e := rfl
@[simp] theorem State.setAcc_h (o : AluOut) : (State.setAcc s o).h = s.h := rfl
@[simp] theorem State.setAcc_l (o : AluOut) : (State.setAcc s o).l = s.l := rfl
@[simp] theorem State.setAcc_sp (o : AluOut) : (State.setAcc s o).sp = s.sp := rfl
@[simp] theorem State.setAcc_pc (o : AluOut) : (State.setAcc s o).pc = s.pc := rfl
@[simp] theorem State.setAcc_ime (o : AluOut) : (State.setAcc s o).ime = s.ime := rfl
@[simp] theorem State.setAcc_ie (o : AluOut) : (State.setAcc s o).ie = s.ie := rfl
@[simp] theorem State.setAcc_ifr (o : AluOut) : (State.setAcc s o).ifr = s.ifr := rfl
@[simp] theorem State.setAcc_eiDelay (o : AluOut) : (State.setAcc s o).eiDelay = s.eiDelay := rfl
@[simp] theorem State.setAcc_halted (o : AluOut) : (State.setAcc s o).halted = s.halted := rfl
@[simp] theorem State.setAcc_haltBug (o : AluOut) : (State.setAcc s o).haltBug = s.haltBug := rfl
@[simp] theorem State.setAcc_counter (o : AluOut) : (State.setAcc s o).counter = s.counter := rfl
@[simp] theorem State.setAcc_tima (o : AluOut) : (State.setAcc s o).tima = s.tima := rfl
@[simp] theorem State.setAcc_tma (o : AluOut) : (State.setAcc s o).tma = s.tma := rfl
@[simp] theorem State.setAcc_tac (o : AluOut) : (State.setAcc s o).tac = s.tac := rfl
@[simp] theorem State.setAcc_reloadPending (o : AluOut) : (State.setAcc s o).reloadPending = s.reloadPending := rfl
@[simp] theorem State.setAcc_registry (o : AluOut) : (State.setAcc s o).registry = s.registry := rfl
@[simp] theorem State.setAcc_flat (o : AluOut) : (State.setAcc s o).flat = s.flat := rfl
@[simp] theorem State.setAcc_faulted (o : AluOut) : (State.setAcc s o).faulted = s.faulted := rfl
@[simp] theorem State.setAcc_cycles (o : AluOut) : (State.setAcc s o).cycles = s.cycles := rfl
@[simp] theorem State.setAcc_cfg (o : AluOut) : (State.setAcc s o).cfg = s.cfg := rfl
@[simp] theorem State.setAcc_env (o : AluOut) : (State.setAcc s o).env = s.env := rfl
@[simp] theorem State.setAcc_curOp (o : AluOut) : (State.setAcc s o).curOp = s.curOp := rfl
@[simp] theorem State.setAcc_opaddr (o : AluOut) : (State.setAcc s o).opaddr = s.opaddr := rfl

/-! ### `setBitFlags` -/

@[simp] theorem State.setBitFlags_a (b : BitVec 3) (v : Byte) : (State.setBitFlags s b v).a = s.a := rfl
@[simp] theorem State.setBitFlags_f (b : BitVec 3) (v : Byte) : (State.setBitFlags s b v).f = (s.f &&& 0x0F) ||| packFlags (!v.getLsbD b.toNat) false true s.flagC := rfl
@[simp] theorem State.setBitFlags_b (b : BitVec 3) (v : Byte) : (State.setBitFlags s b v).b = s.b := rfl
@[simp] theorem State.setBitFlags_c (b : BitVec 3) (v : Byte) : (State.setBitFlags s b v).c = s.c := rfl
@[simp] theorem State.setBitFlags_d (b : BitVec 3) (v : Byte) : (State.setBitFlags s b v).d = s.d := rfl
@[simp] theorem State.setBitFlags_e (b : BitVec 3) (v : Byte) : (State.setBitFlags s b v).e = s.e := rfl
@[simp] theorem State.setBitFlags_h (b : BitVec 3) (v : Byte) : (State.setBitFlags s b v).h = s.h := rfl
@[simp] theorem State.setBitFlags_l (b : BitVec 3) (v : Byte) : (State.setBitFlags s b v).l = s.l := rfl
@[simp] theorem State.setBitFlags_sp (b : BitVec 3) (v : Byte) : (State.setBitFlags s b v).sp = s.sp := rfl
@[simp] theorem State.setBitFlags_pc (b : BitVec 3) (v : Byte) : (State.setBitFlags s b v).pc = s.pc := rfl
@[simp] theorem State.setBitFlags_ime (b : BitVec 3) (v : Byte) : (State.setBitFlags s b v).ime = s.ime := rfl
@[simp] theorem State.setBitFlags_ie (b : BitVec 3) (v : Byte) : (State.setBitFlags s b v).ie = s.ie := rfl
@[simp] theorem State.setBitFlags_ifr (b : BitVec 3) (v : Byte) : (State.setBitFlags s b v).ifr = s.ifr := rfl
@[simp] theorem State.setBitFlags_eiDelay (b : BitVec 3) (v : Byte) : (State.setBitFlags s b v).eiDelay = s.eiDelay := rfl
@[simp] theorem State.setBitFlags_halted (b : BitVec 3) (v : Byte) : (State.setBitFlags s b v).halted = s.halted := rfl
@[simp] theorem State.setBitFlags_haltBug (b : BitVec 3) (v : Byte) : (State.setBitFlags s b v).haltBug = s.haltBug := rfl
@[simp] theorem State.setBitFlags_counter (b : BitVec 3) (v : Byte) : (State.setBitFlags s b v).counter = s.counter := rfl
@[simp] theorem State.setBitFlags_tima (b : BitVec 3) (v : Byte) : (State.setBitFlags s b v).tima = s.tima := rfl
@[simp] theorem State.setBitFlags_tma (b : BitVec 3) (v : Byte) : (State.setBitFlags s b v).tma = s.tma := rfl
@[simp] theorem State.setBitFlags_tac (b : BitVec 3) (v : Byte) : (State.setBitFlags s b v).tac = s.tac := rfl
@[simp] theorem State.setBitFlags_reloadPending (b : BitVec 3) (v : Byte) : (State.setBitFlags s b v).reloadPending = s.reloadPending := rfl
@[simp] theorem State.setBitFlags_registry (b : BitVec 3) (v : Byte) : (State.setBitFlags s b v).registry = s.registry := rfl
@[simp] theorem State.setBitFlags_flat (b : BitVec 3) (v : Byte) : (State.setBitFlags s b v).flat = s.flat := rfl
@[simp] theorem State.setBitFlags_faulted (b : BitVec 3) (v : Byte) : (State.setBitFlags s b v).faulted = s.faulted := rfl
@[simp] theorem State.setBitFlags_cycles (b : BitVec 3) (v : Byte) : (State.setBitFlags s b v).cycles = s.cycles := rfl
@[simp] theorem State.setBitFlags_cfg (b : BitVec 3) (v : Byte) : (State.setBitFlags s b v).cfg = s.cfg := rfl
@[simp] theorem State.setBitFlags_env (b : BitVec 3) (v : Byte) : (State.setBitFlags s b v).env = s.env := rfl
@[simp] theorem State.setBitFlags_curOp (b : BitVec 3) (v : Byte) : (State.setBitFlags s b v).curOp = s.curOp := rfl
@[simp] theorem State.setBitFlags_opaddr (b : BitVec 3) (v : Byte) : (State.setBitFlags s b v).opaddr = s.opaddr := rfl

/-! ### `setBc` -/

@[simp] theorem State.setBc_a (v : Word) : (State.setBc s v).a = s.a := rfl
@[simp] theorem State.setBc_f (v : Word) : (State.setBc s v).f = s.f := rfl
@[simp] theorem State.setBc_b (v : Word) : (State.setBc s v).b = hiByte v := rfl
@[simp] theorem State.setBc_c (v : Word) : (State.setBc s v).c = loByte v := rfl
@[simp] theorem State.setBc_d (v : Word) : (State.setBc s v).d = s.d := rfl
@[simp] theorem State.setBc_e (v : Word) : (State.setBc s v).e = s.e := rfl
@[simp] theorem State.setBc_h (v : Word) : (State.setBc s v).h = s.h := rfl
@[simp] theorem State.setBc_l (v : Word) : (State.setBc s v).l = s.l := rfl
@[simp] theorem State.setBc_sp (v : Word) : (State.setBc s v).sp = s.sp := rfl
@[simp] theorem State.setBc_pc (v : Word) : (State.setBc s v).pc = s.pc := rfl
@[simp] theorem State.setBc_ime (v : Word) : (State.setBc s v).ime = s.ime := rfl
@[simp] theorem State.setBc_ie (v : Word) : (State.setBc s v).ie = s.ie := rfl
@[simp] theorem State.setBc_ifr (v : Word) : (State.setBc s v).ifr = s.ifr := rfl
@[simp] theorem State.setBc_eiDelay (v : Word) : (State.setBc s v).eiDelay = s.eiDelay := rfl
@[simp] theorem State.setBc_halted (v : Word) : (State.setBc s v).halted = s.halted := rfl
@[simp] theorem State.setBc_haltBug (v : Word) : (State.setBc s v).haltBug = s.haltBug := rfl
@[simp] theorem State.setBc_counter (v : Word) : (State.setBc s v).counter = s.counter := rfl
@[simp] theorem State.setBc_tima (v : Word) : (State.setBc s v).tima = s.tima := rfl
@[simp] theorem State.setBc_tma (v : Word) : (State.setBc s v).tma = s.tma := rfl
@[simp] theorem State.setBc_tac (v : Word) : (State.setBc s v).tac = s.tac := rfl
@[simp] theorem State.setBc_reloadPending (v : Word) : (State.setBc s v).reloadPending = s.reloadPending := rfl
@[simp] theorem State.setBc_registry (v : Word) : (State.setBc s v).registry = s.registry := rfl
@[simp] theorem State.setBc_flat (v : Word) : (State.setBc s v).flat = s.flat := rfl
@[simp] theorem State.setBc_faulted (v : Word) : (State.setBc s v).faulted = s.faulted := rfl
@[simp] theorem State.setBc_cycles (v : Word) : (State.setBc s v).cycles = s.cycles := rfl
@[simp] theorem State.setBc_cfg (v : Word) : (State.setBc s v).cfg = s.cfg := rfl
@[simp] theorem State.setBc_env (v : Word) : (State.setBc s v).env = s.env := rfl
@[simp] theorem State.setBc_curOp (v : Word) : (State.setBc s v).curOp = s.curOp := rfl
@[simp] theorem State.setBc_opaddr (v : Word) : (State.setBc s v).opaddr = s.opaddr := rfl

/-! ### `setDe` -/

@[simp] theorem State.setDe_a (v : Word) : (State.setDe s v).a = s.a := rfl
@[simp] theorem State.setDe_f (v : Word) : (State.setDe s v).f = s.f := rfl
@[simp] theorem State.setDe_b (v : Word) : (State.setDe s v).b = s.b := rfl
@[simp] theorem State.setDe_c (v : Word) : (State.setDe s v).c = s.c := rfl
@[simp] theorem State.setDe_d (v : Word) : (State.setDe s v).d = hiByte v := rfl
@[simp] theorem State.setDe_e (v : Word) : (State.setDe s v).e = loByte v := rfl
@[simp] theorem State.setDe_h (v : Word) : (State.setDe s v).h = s.h := rfl
@[simp] theorem State.setDe_l (v : Word) : (State.setDe s v).l = s.l := rfl
@[simp] theorem State.setDe_sp (v : Word) : (State.setDe s v).sp = s.sp := rfl
@[simp] theorem State.setDe_pc (v : Word) : (State.setDe s v).pc = s.pc := rfl
@[simp] theorem State.setDe_ime (v : Word) : (State.setDe s v).ime = s.ime := rfl
@[simp] theorem State.setDe_ie (v : Word) : (State.setDe s v).ie = s.ie := rfl
@[simp] theorem State.setDe_ifr (v : Word) : (State.setDe s v).ifr = s.ifr := rfl
@[simp] theorem State.setDe_eiDelay (v : Word) : (State.setDe s v).eiDelay = s.eiDelay := rfl
@[simp] theorem State.setDe_halted (v : Word) : (State.setDe s v).halted = s.halted := rfl
@[simp] theorem State.setDe_haltBug (v : Word) : (State.setDe s v).haltBug = s.haltBug := rfl
@[simp] theorem State.setDe_counter (v : Word) : (State.setDe s v).counter = s.counter := rfl
@[simp] theorem State.setDe_tima (v : Word) : (State.setDe s v).tima = s.tima := rfl
@[simp] theorem State.setDe_tma (v : Word) : (State.setDe s v).tma = s.tma := rfl
@[simp] theorem State.setDe_tac (v : Word) : (State.setDe s v).tac = s.tac := rfl
@[simp] theorem State.setDe_reloadPending (v : Word) : (State.setDe s v).reloadPending = s.reloadPending := rfl
@[simp] theorem State.setDe_registry (v : Word) : (State.setDe s v).registry = s.registry := rfl
@[simp] theorem State.setDe_flat (v : Word) : (State.setDe s v).flat = s.flat := rfl
@[simp] theorem State.setDe_faulted (v : Word) : (State.setDe s v).faulted = s.faulted := rfl
@[simp] theorem State.setDe_cycles (v : Word) : (State.setDe s v).cycles = s.cycles := rfl
@[simp] theorem State.setDe_cfg (v : Word) : (State.setDe s v).cfg = s.cfg := rfl
@[simp] theorem State.setDe_env (v : Word) : (State.setDe s v).env = s.env := rfl
@[simp] theorem State.setDe_curOp (v : Word) : (State.setDe s v).curOp = s.curOp := rfl
@[simp] theorem State.setDe_opaddr (v : Word) : (State.setDe s v).opaddr = s.opaddr := rfl

/-! ### `setHl` -/

@[simp] theorem State.setHl_a (v : Word) : (State.setHl s v).a = s.a := rfl
@[simp] theorem State.setHl_f (v : Word) : (State.setHl s v).f = s.f := rfl
@[simp] theorem State.setHl_b (v : Word) : (State.setHl s v).b = s.b := rfl
@[simp] theorem State.setHl_c (v : Word) : (State.setHl s v).c = s.c := rfl
@[simp] theorem State.setHl_d (v : Word) : (State.setHl s v).d = s.d := rfl
@[simp] theorem State.setHl_e (v : Word) : (State.setHl s v).e = s.e := rfl
@[simp] theorem State.setHl_h (v : Word) : (State.setHl s v).h = hiByte v := rfl
@[simp] theorem State.setHl_l (v : Word) : (State.setHl s v).l = loByte v := rfl
@[simp] theorem State.setHl_sp (v : Word) : (State.setHl s v).sp = s.sp := rfl
@[simp] theorem State.setHl_pc (v : Word) : (State.setHl s v).pc = s.pc := rfl
@[simp] theorem State.setHl_ime (v : Word) : (State.setHl s v).ime = s.ime := rfl
@[simp] theorem State.setHl_ie (v : Word) : (State.setHl s v).ie = s.ie := rfl
@[simp] theorem State.setHl_ifr (v : Word) : (State.setHl s v).ifr = s.ifr := rfl
@[simp] theorem State.setHl_eiDelay (v : Word) : (State.setHl s v).eiDelay = s.eiDelay := rfl
@[simp] theorem State.setHl_halted (v : Word) : (State.setHl s v).halted = s.halted := rfl
@[simp] theorem State.setHl_haltBug (v : Word) : (State.setHl s v).haltBug = s.haltBug := rfl
@[simp] theorem State.setHl_counter (v : Word) : (State.setHl s v).counter = s.counter := rfl
@[simp] theorem State.setHl_tima (v : Word) : (State.setHl s v).tima = s.tima := rfl
@[simp] theorem State.setHl_tma (v : Word) : (State.setHl s v).tma = s.tma := rfl
@[simp] theorem State.setHl_tac (v : Word) : (State.setHl s v).tac = s.tac := rfl
@[simp] theorem State.setHl_reloadPending (v : Word) : (State.setHl s v).reloadPending = s.reloadPending := rfl
@[simp] theorem State.setHl_registry (v : Word) : (State.setHl s v).registry = s.registry := rfl
@[simp] theorem State.setHl_flat (v : Word) : (State.setHl s v).flat = s.flat := rfl
@[simp] theorem State.setHl_faulted (v : Word) : (State.setHl s v).faulted = s.faulted := rfl
@[simp] theorem State.setHl_cycles (v : Word) : (State.setHl s v).cycles = s.cycles := rfl
@[simp] theorem State.setHl_cfg (v : Word) : (State.setHl s v).cfg = s.cfg := rfl
@[simp] theorem State.setHl_env (v : Word) : (State.setHl s v).env = s.env := rfl
@[simp] theorem State.setHl_curOp (v : Word) : (State.setHl s v).curOp = s.curOp := rfl
@[simp] theorem State.setHl_opaddr (v : Word) : (State.setHl s v).opaddr = s.opaddr := rfl

/-! ### `setAf` -/

@[simp] theorem State.setAf_a (v : Word) : (State.setAf s v).a = hiByte v := rfl
@[simp] theorem State.setAf_f (v : Word) : (State.setAf s v).f = loByte v &&& 0xF0 := rfl
@[simp] theorem State.setAf_b (v : Word) : (State.setAf s v).b = s.b := rfl
@[simp] theorem State.setAf_c (v : Word) : (State.setAf s v).c = s.c := rfl
@[simp] theorem State.setAf_d (v : Word) : (State.setAf s v).d = s.d := rfl
@[simp] theorem State.setAf_e (v : Word) : (State.setAf s v).e = s.e := rfl
@[simp] theorem State.setAf_h (v : Word) : (State.setAf s v).h = s.h := rfl
@[simp] theorem State.setAf_l (v : Word) : (State.setAf s v).l = s.l := rfl
@[simp] theorem State.setAf_sp (v : Word) : (State.setAf s v).sp = s.sp := rfl
@[simp] theorem State.setAf_pc (v : Word) : (State.setAf s v).pc = s.pc := rfl
@[simp] theorem State.setAf_ime (v : Word) : (State.setAf s v).ime = s.ime := rfl
@[simp] theorem State.setAf_ie (v : Word) : (State.setAf s v).ie = s.ie := rfl
@[simp] theorem State.setAf_ifr (v : Word) : (State.setAf s v).ifr = s.ifr := rfl
@[simp] theorem State.setAf_eiDelay (v : Word) : (State.setAf s v).eiDelay = s.eiDelay := rfl
@[simp] theorem State.setAf_halted (v : Word) : (State.setAf s v).halted = s.halted := rfl
@[simp] theorem State.setAf_haltBug (v : Word) : (State.setAf s v).haltBug = s.haltBug := rfl
@[simp] theorem State.setAf_counter (v : Word) : (State.setAf s v).counter = s.counter := rfl
@[simp] theorem State.setAf_tima (v : Word) : (State.setAf s v).tima = s.tima := rfl
@[simp] theorem State.setAf_tma (v : Word) : (State.setAf s v).tma = s.tma := rfl
@[simp] theorem State.setAf_tac (v : Word) : (State.setAf s v).tac = s.tac := rfl
@[simp] theorem State.setAf_reloadPending (v : Word) : (State.setAf s v).reloadPending = s.reloadPending := rfl
@[simp] theorem State.setAf_registry (v : Word) : (State.setAf s v).registry = s.registry := rfl
@[simp] theorem State.setAf_flat (v : Word) : (State.setAf s v).flat = s.flat := rfl
@[simp] theorem State.setAf_faulted (v : Word) : (State.setAf s v).faulted = s.faulted := rfl
@[simp] theorem State.setAf_cycles (v : Word) : (State.setAf s v).cycles = s.cycles := rfl
@[simp] theorem State.setAf_cfg (v : Word) : (State.setAf s v).cfg = s.cfg := rfl
@[simp] theorem State.setAf_env (v : Word) : (State.setAf s v).env = s.env := rfl
@[simp] theorem State.setAf_curOp (v : Word) : (State.setAf s v).curOp = s.curOp := rfl
@[simp] theorem State.setAf_opaddr (v : Word) : (State.setAf s v).opaddr = s.opaddr := rfl

/-! ### `setR8` -/

@[simp] theorem State.setR8_f (r : Reg8) (v : Byte) : (State.setR8 s r v).f = s.f := by cases r <;> rfl
@[simp] theorem State.setR8_sp (r : Reg8) (v : Byte) : (State.setR8 s r v).sp = s.sp := by cases r <;> rfl
@[simp] theorem State.setR8_pc (r : Reg8) (v : Byte) : (State.setR8 s r v).pc = s.pc := by cases r <;> rfl
@[simp] theorem State.setR8_ime (r : Reg8) (v : Byte) : (State.setR8 s r v).ime = s.ime := by cases r <;> rfl
@[simp] theorem State.setR8_ie (r : Reg8) (v : Byte) : (State.setR8 s r v).ie = s.ie := by cases r <;> rfl
@[simp] theorem State.setR8_ifr (r : Reg8) (v : Byte) : (State.setR8 s r v).ifr = s.ifr := by cases r <;> rfl
@[simp] theorem State.setR8_eiDelay (r : Reg8) (v : Byte) : (State.setR8 s r v).eiDelay = s.eiDelay := by cases r <;> rfl
@[simp] theorem State.setR8_halted (r : Reg8) (v : Byte) : (State.setR8 s r v).halted = s.halted := by cases r <;> rfl
@[simp] theorem State.setR8_haltBug (r : Reg8) (v : Byte) : (State.setR8 s r v).haltBug = s.haltBug := by cases r <;> rfl
@[simp] theorem State.setR8_counter (r : Reg8) (v : Byte) : (State.setR8 s r v).counter = s.counter := by cases r <;> rfl
@[simp] theorem State.setR8_tima (r : Reg8) (v : Byte) : (State.setR8 s r v).tima = s.tima := by cases r <;> rfl
@[simp] theorem State.setR8_tma (r : Reg8) (v : Byte) : (State.setR8 s r v).tma = s.tma := by cases r <;> rfl
@[simp] theorem State.setR8_tac (r : Reg8) (v : Byte) : (State.setR8 s r v).tac = s.tac := by cases r <;> rfl
@[simp] theorem State.setR8_reloadPending (r : Reg8) (v : Byte) : (State.setR8 s r v).reloadPending = s.reloadPending := by cases r <;> rfl
@[simp] theorem State.setR8_registry (r : Reg8) (v : Byte) : (State.setR8 s r v).registry = s.registry := by cases r <;> rfl
@[simp] theorem State.setR8_flat (r : Reg8) (v : Byte) : (State.setR8 s r v).flat = s.flat := by cases r <;> rfl
@[simp] theorem State.setR8_faulted (r : Reg8) (v : Byte) : (State.setR8 s r v).faulted = s.faulted := by cases r <;> rfl
@[simp] theorem State.setR8_cycles (r : Reg8) (v : Byte) : (State.setR8 s r v).cycles = s.cycles := by cases r <;> rfl
@[simp] theorem State.setR8_cfg (r : Reg8) (v : Byte) : (State.setR8 s r v).cfg = s.cfg := by cases r <;> rfl
@[simp] theorem State.setR8_env (r : Reg8) (v : Byte) : (State.setR8 s r v).env = s.env := by cases r <;> rfl
@[simp] theorem State.setR8_curOp (r : Reg8) (v : Byte) : (State.setR8 s r v).curOp = s.curOp := by cases r <;> rfl
@[simp] theorem State.setR8_opaddr (r : Reg8) (v : Byte) : (State.setR8 s r v).opaddr = s.opaddr := by cases r <;> rfl

/-! ### `setR8Alu` -/

@[simp] theorem State.setR8Alu_sp (r : Reg8) (o : AluOut) : (State.setR8Alu s r o).sp = s.sp := by cases r <;> rfl
@[simp] theorem State.setR8Alu_pc (r : Reg8) (o : AluOut) : (State.setR8Alu s r o).pc = s.pc := by cases r <;> rfl
@[simp] theorem State.setR8Alu_ime (r : Reg8) (o : AluOut) : (State.setR8Alu s r o).ime = s.ime := by cases r <;> rfl
@[simp] theorem State.setR8Alu_ie (r : Reg8) (o : AluOut) : (State.setR8Alu s r o).ie = s.ie := by cases r <;> rfl
@[simp] theorem State.setR8Alu_ifr (r : Reg8) (o : AluOut) : (State.setR8Alu s r o).ifr = s.ifr := by cases r <;> rfl
@[simp] theorem State.setR8Alu_eiDelay (r : Reg8) (o : AluOut) : (State.setR8Alu s r o).eiDelay = s.eiDelay := by cases r <;> rfl
@[simp] theorem State.setR8Alu_halted (r : Reg8) (o : AluOut) : (State.setR8Alu s r o).halted = s.halted := by cases r <;> rfl
@[simp] theorem State.setR8Alu_haltBug (r : Reg8) (o : AluOut) : (State.setR8Alu s r o).haltBug = s.haltBug := by cases r <;> rfl
@[simp] theorem State.setR8Alu_counter (r : Reg8) (o : AluOut) : (State.setR8Alu s r o).counter = s.counter := by cases r <;> rfl
@[simp] theorem State.setR8Alu_tima (r : Reg8) (o : AluOut) : (State.setR8Alu s r o).tima = s.tima := by cases r <;> rfl
@[simp] theorem State.setR8Alu_tma (r : Reg8) (o : AluOut) : (State.setR8Alu s r o).tma = s.tma := by cases r <;> rfl
@[simp] theorem State.setR8Alu_tac (r : Reg8) (o : AluOut) : (State.setR8Alu s r o).tac = s.tac := by cases r <;> rfl
@[simp] theorem State.setR8Alu_reloadPending (r : Reg8) (o : AluOut) : (State.setR8Alu s r o).reloadPending = s.reloadPending := by cases r <;> rfl
@[simp] theorem State.setR8Alu_registry (r : Reg8) (o : AluOut) : (State.setR8Alu s r o).registry = s.registry := by cases r <;> rfl
@[simp] theorem State.setR8Alu_flat (r : Reg8) (o : AluOut) : (State.setR8Alu s r o).flat = s.flat := by cases r <;> rfl
@[simp] theorem State.setR8Alu_faulted (r : Reg8) (o : AluOut) : (State.setR8Alu s r o).faulted = s.faulted := by cases r <;> rfl
@[simp] theorem State.setR8Alu_cycles (r : Reg8) (o : AluOut) : (State.setR8Alu s r o).cycles = s.cycles := by cases r <;> rfl
@[simp] theorem State.setR8Alu_cfg (r : Reg8) (o : AluOut) : (State.setR8Alu s r o).cfg = s.cfg := by cases r <;> rfl
@[simp] theorem State.setR8Alu_env (r : Reg8) (o : AluOut) : (State.setR8Alu s r o).env = s.env := by cases r <;> rfl
@[simp] theorem State.setR8Alu_curOp (r : Reg8) (o : AluOut) : (State.setR8Alu s r o).curOp = s.curOp := by cases r <;> rfl
@[simp] theorem State.setR8Alu_opaddr (r : Reg8) (o : AluOut) : (State.setR8Alu s r o).opaddr = s.opaddr := by cases r <;> rfl

@[simp] theorem State.setR8Alu_f (r : Reg8) (o : AluOut) :
    (State.setR8Alu s r o).f = (s.f &&& 0x0F) ||| packFlags o.z o.n o.h o.c := by cases r <;> rfl

/-! ### `setR16` -/

@[simp] theorem State.setR16_a (rr : Reg16) (v : Word) : (State.setR16 s rr v).a = s.a := by cases rr <;> rfl
@[simp] theorem State.setR16_f (rr : Reg16) (v : Word) : (State.setR16 s rr v).f = s.f := by cases rr <;> rfl
@[simp] theorem State.setR16_pc (rr : Reg16) (v : Word) : (State.setR16 s rr v).pc = s.pc := by cases rr <;> rfl
@[simp] theorem State.setR16_ime (rr : Reg16) (v : Word) : (State.setR16 s rr v).ime = s.ime := by cases rr <;> rfl
@[simp] theorem State.setR16_ie (rr : Reg16) (v : Word) : (State.setR16 s rr v).ie = s.ie := by cases rr <;> rfl
@[simp] theorem State.setR16_ifr (rr : Reg16) (v : Word) : (State.setR16 s rr v).ifr = s.ifr := by cases rr <;> rfl
@[simp] theorem State.setR16_eiDelay (rr : Reg16) (v : Word) : (State.setR16 s rr v).eiDelay = s.eiDelay := by cases rr <;> rfl
@[simp] theorem State.setR16_halted (rr : Reg16) (v : Word) : (State.setR16 s rr v).halted = s.halted := by cases rr <;> rfl
@[simp] theorem State.setR16_haltBug (rr : Reg16) (v : Word) : (State.setR16 s rr v).haltBug = s.haltBug := by cases rr <;> rfl
@[simp] theorem State.setR16_counter (rr : Reg16) (v : Word) : (State.setR16 s rr v).counter = s.counter := by cases rr <;> rfl
@[simp] theorem State.setR16_tima (rr : Reg16) (v : Word) : (State.setR16 s rr v).tima = s.tima := by cases rr <;> rfl
@[simp] theorem State.setR16_tma (rr : Reg16) (v : Word) : (State.setR16 s rr v).tma = s.tma := by cases rr <;> rfl
@[simp] theorem State.setR16_tac (rr : Reg16) (v : Word) : (State.setR16 s rr v).tac = s.tac := by cases rr <;> rfl
@[simp] theorem State.setR16_reloadPending (rr : Reg16) (v : Word) : (State.setR16 s rr v).reloadPending = s.reloadPending := by cases rr <;> rfl
@[simp] theorem State.setR16_registry (rr : Reg16) (v : Word) : (State.setR16 s rr v).registry = s.registry := by cases rr <;> rfl
@[simp] theorem State.setR16_flat (rr : Reg16) (v : Word) : (State.setR16 s rr v).flat = s.flat := by cases rr <;> rfl
@[simp] theorem State.setR16_faulted (rr : Reg16) (v : Word) : (State.setR16 s rr v).faulted = s.faulted := by cases rr <;> rfl
@[simp] theorem State.setR16_cycles (rr : Reg16) (v : Word) : (State.setR16 s rr v).cycles = s.cycles := by cases rr <;> rfl
@[simp] theorem State.setR16_cfg (rr : Reg16) (v : Word) : (State.setR16 s rr v).cfg = s.cfg := by cases rr <;> rfl
@[simp] theorem State.setR16_env (rr : Reg16) (v : Word) : (State.setR16 s rr v).env = s.env := by cases rr <;> rfl
@[simp] theorem State.setR16_curOp (rr : Reg16) (v : Word) : (State.setR16 s rr v).curOp = s.curOp := by cases rr <;> rfl
@[simp] theorem State.setR16_opaddr (rr : Reg16) (v : Word) : (State.setR16 s rr v).opaddr = s.opaddr := by cases rr <;> rfl

/-! ### `setStk` -/

@[simp] theorem State.setStk_sp (qq : RegStk) (v : Word) : (State.setStk s qq v).sp = s.sp := by cases qq <;> rfl
@[simp] theorem State.setStk_pc (qq : RegStk) (v : Word) : (State.setStk s qq v).pc = s.pc := by cases qq <;> rfl
@[simp] theorem State.setStk_ime (qq : RegStk) (v : Word) : (State.setStk s qq v).ime = s.ime := by cases qq <;> rfl
@[simp] theorem State.setStk_ie (qq : RegStk) (v : Word) : (State.setStk s qq v).ie = s.ie := by cases qq <;> rfl
@[simp] theorem State.setStk_ifr (qq : RegStk) (v : Word) : (State.setStk s qq v).ifr = s.ifr := by cases qq <;> rfl
@[simp] theorem State.setStk_eiDelay (qq : RegStk) (v : Word) : (State.setStk s qq v).eiDelay = s.eiDelay := by cases qq <;> rfl
@[simp] theorem State.setStk_halted (qq : RegStk) (v : Word) : (State.setStk s qq v).halted = s.halted := by cases qq <;> rfl
@[simp] theorem State.setStk_haltBug (qq : RegStk) (v : Word) : (State.setStk s qq v).haltBug = s.haltBug := by cases qq <;> rfl
@[simp] theorem State.setStk_counter (qq : RegStk) (v : Word) : (State.setStk s qq v).counter = s.counter := by cases qq <;> rfl
@[simp] theorem State.setStk_tima (qq : RegStk) (v : Word) : (State.setStk s qq v).tima = s.tima := by cases qq <;> rfl
@[simp] theorem State.setStk_tma (qq : RegStk) (v : Word) : (State.setStk s qq v).tma = s.tma := by cases qq <;> rfl
@[simp] theorem State.setStk_tac (qq : RegStk) (v : Word) : (State.setStk s qq v).tac = s.tac := by cases qq <;> rfl
@[simp] theorem State.setStk_reloadPending (qq : RegStk) (v : Word) : (State.setStk s qq v).reloadPending = s.reloadPending := by cases qq <;> rfl
@[simp] theorem State.setStk_registry (qq : RegStk) (v : Word) : (State.setStk s qq v).registry = s.registry := by cases qq <;> rfl
@[simp] theorem State.setStk_flat (qq : RegStk) (v : Word) : (State.setStk s qq v).flat = s.flat := by cases qq <;> rfl
@[simp] theorem State.setStk_faulted (qq : RegStk) (v : Word) : (State.setStk s qq v).faulted = s.faulted := by cases qq <;> rfl
@[simp] theorem State.setStk_cycles (qq : RegStk) (v : Word) : (State.setStk s qq v).cycles = s.cycles := by cases qq <;> rfl
@[simp] theorem State.setStk_cfg (qq : RegStk) (v : Word) : (State.setStk s qq v).cfg = s.cfg := by cases qq <;> rfl
@[simp] theorem State.setStk_env (qq : RegStk) (v : Word) : (State.setStk s qq v).env = s.env := by cases qq <;> rfl
@[simp] theorem State.setStk_curOp (qq : RegStk) (v : Word) : (State.setStk s qq v).curOp = s.curOp := by cases qq <;> rfl
@[simp] theorem State.setStk_opaddr (qq : RegStk) (v : Word) : (State.setStk s qq v).opaddr = s.opaddr := by cases qq <;> rfl

/-! ### Reading back -/

@[simp] theorem State.r8_setR8_same (r : Reg8) (v : Byte) : (s.setR8 r v).r8 r = v := by cases r <;> rfl

theorem State.r8_setR8_ne {r r' : Reg8} (h : r' ≠ r) (v : Byte) : (s.setR8 r v).r8 r' = s.r8 r' := by
  cases r <;> cases r' <;> first | rfl | exact absurd rfl h

@[simp] theorem word_hiByte_loByte (v : Word) : word (hiByte v) (loByte v) = v := by
  apply BitVec.eq_of_toNat_eq
  simp only [word, hiByte, loByte, BitVec.toNat_append, BitVec.extractLsb'_toNat, Nat.shiftRight_zero]
  rw [← Nat.shiftLeft_add_eq_or_of_lt (Nat.mod_lt _ (by decide)), Nat.shiftLeft_eq, Nat.shiftRight_eq_div_pow]
  omega

@[simp] theorem hiByte_word (hi lo : Byte) : hiByte (word hi lo) = hi := by
  apply BitVec.eq_of_toNat_eq
  simp only [word, hiByte, BitVec.toNat_append, BitVec.extractLsb'_toNat]
  rw [← Nat.shiftLeft_add_eq_or_of_lt lo.isLt, Nat.shiftLeft_eq, Nat.shiftRight_eq_div_pow]
  omega

@[simp] theorem loByte_word (hi lo : Byte) : loByte (word hi lo) = lo := by
  apply BitVec.eq_of_toNat_eq
  simp only [word, loByte, BitVec.toNat_append, BitVec.extractLsb'_toNat, Nat.shiftRight_zero]
  rw [← Nat.shiftLeft_add_eq_or_of_lt lo.isLt, Nat.shiftLeft_eq]
  omega

@[simp] theorem State.bc_setBc (v : Word) : (s.setBc v).bc = v := word_hiByte_loByte v

@[simp] theorem State.de_setDe (v : Word) : (s.setDe v).de = v := word_hiByte_loByte v

@[simp] theorem State.hl_setHl (v : Word) : (s.setHl v).hl = v := word_hiByte_loByte v

@[simp] theorem State.r16_setR16_same (rr : Reg16) (v : Word) : (s.setR16 rr v).r16 rr = v := by
  cases rr <;> simp [State.r16, State.setR16]

/-! ### The flags -/

theorem packFlags_lowNibble (z n h c : Bool) : packFlags z n h c &&& 0x0F = 0 := by
  cases z <;> cases n <;> cases h <;> cases c <;> decide

/-- Writing the flags leaves F[3:0] as it was (R27). -/
theorem State.setFlags_lowNibble (z n h c : Bool) : (s.setFlags z n h c).f &&& 0x0F = s.f &&& 0x0F := by
  rw [State.setFlags_f, BitVec.and_comm, BitVec.and_or_distrib_left, BitVec.and_comm 0x0F (packFlags z n h c),
    packFlags_lowNibble, BitVec.and_comm 0x0F, BitVec.and_assoc]
  simp

theorem lowNibble_or_flags_getLsbD (f : Byte) (z n h c : Bool) :
    ((f &&& 0x0F) ||| packFlags z n h c).getLsbD 7 = z ∧ ((f &&& 0x0F) ||| packFlags z n h c).getLsbD 6 = n ∧
      ((f &&& 0x0F) ||| packFlags z n h c).getLsbD 5 = h ∧ ((f &&& 0x0F) ||| packFlags z n h c).getLsbD 4 = c := by
  cases z <;> cases n <;> cases h <;> cases c <;> simp [packFlags, bitByte]

@[simp] theorem State.flagZ_setFlags (z n h c : Bool) : (s.setFlags z n h c).flagZ = z :=
  (lowNibble_or_flags_getLsbD s.f z n h c).1

@[simp] theorem State.flagN_setFlags (z n h c : Bool) : (s.setFlags z n h c).flagN = n :=
  (lowNibble_or_flags_getLsbD s.f z n h c).2.1

@[simp] theorem State.flagH_setFlags (z n h c : Bool) : (s.setFlags z n h c).flagH = h :=
  (lowNibble_or_flags_getLsbD s.f z n h c).2.2.1

@[simp] theorem State.flagC_setFlags (z n h c : Bool) : (s.setFlags z n h c).flagC = c :=
  (lowNibble_or_flags_getLsbD s.f z n h c).2.2.2

end Sys2Proof.Machine
end

