-- ==== Sys2Proof/Laws/Timer.lean ====
section
/-! SUPPORT. What the timer operations and a tick can change, said once. -/

namespace Sys2Proof.Machine

variable (s : State)

theorem timerEdge_frame (old new : Word) :
    timerEdge old new s = { s with tima := (timerEdge old new s).tima, reloadPending := (timerEdge old new s).reloadPending } := by
  unfold timerEdge incrementTima
  split <;> rfl

theorem applyReload_frame :
    applyReload s = { s with tima := (applyReload s).tima, ifr := (applyReload s).ifr, reloadPending := false } := by
  unfold applyReload requestInterrupt
  split
  · rfl
  · next h => cases s; simp_all

theorem notify_frame (n : Nat) : notify n s = { s with env := (notify n s).env, ifr := (notify n s).ifr } := by
  unfold notify
  split <;> rfl

theorem resetDivider_frame :
    resetDivider s =
      { s with counter := 0, tima := (resetDivider s).tima, reloadPending := (resetDivider s).reloadPending } := by
  unfold resetDivider
  rw [timerEdge_frame]

@[simp] theorem timerEdge_a (old new : Word) : (timerEdge old new s).a = s.a := by rw [timerEdge_frame s old new]
@[simp] theorem timerEdge_f (old new : Word) : (timerEdge old new s).f = s.f := by rw [timerEdge_frame s old new]
@[simp] theorem timerEdge_b (old new : Word) : (timerEdge old new s).b = s.b := by rw [timerEdge_frame s old new]
@[simp] theorem timerEdge_c (old new : Word) : (timerEdge old new s).c = s.c := by rw [timerEdge_frame s old new]
@[simp] theorem timerEdge_d (old new : Word) : (timerEdge old new s).d = s.d := by rw [timerEdge_frame s old new]
@[simp] theorem timerEdge_e (old new : Word) : (timerEdge old new s).e = s.e := by rw [timerEdge_frame s old new]
@[simp] theorem timerEdge_h (old new : Word) : (timerEdge old new s).h = s.h := by rw [timerEdge_frame s old new]
@[simp] theorem timerEdge_l (old new : Word) : (timerEdge old new s).l = s.l := by rw [timerEdge_frame s old new]
@[simp] theorem timerEdge_sp (old new : Word) : (timerEdge old new s).sp = s.sp := by rw [timerEdge_frame s old new]
@[simp] theorem timerEdge_pc (old new : Word) : (timerEdge old new s).pc = s.pc := by rw [timerEdge_frame s old new]
@[simp] theorem timerEdge_ime (old new : Word) : (timerEdge old new s).ime = s.ime := by rw [timerEdge_frame s old new]
@[simp] theorem timerEdge_ie (old new : Word) : (timerEdge old new s).ie = s.ie := by rw [timerEdge_frame s old new]
@[simp] theorem timerEdge_ifr (old new : Word) : (timerEdge old new s).ifr = s.ifr := by rw [timerEdge_frame s old new]
@[simp] theorem timerEdge_eiDelay (old new : Word) : (timerEdge old new s).eiDelay = s.eiDelay := by rw [timerEdge_frame s old new]
@[simp] theorem timerEdge_halted (old new : Word) : (timerEdge old new s).halted = s.halted := by rw [timerEdge_frame s old new]
@[simp] theorem timerEdge_haltBug (old new : Word) : (timerEdge old new s).haltBug = s.haltBug := by rw [timerEdge_frame s old new]
@[simp] theorem timerEdge_counter (old new : Word) : (timerEdge old new s).counter = s.counter := by rw [timerEdge_frame s old new]
@[simp] theorem timerEdge_tma (old new : Word) : (timerEdge old new s).tma = s.tma := by rw [timerEdge_frame s old new]
@[simp] theorem timerEdge_tac (old new : Word) : (timerEdge old new s).tac = s.tac := by rw [timerEdge_frame s old new]
@[simp] theorem timerEdge_registry (old new : Word) : (timerEdge old new s).registry = s.registry := by rw [timerEdge_frame s old new]
@[simp] theorem timerEdge_flat (old new : Word) : (timerEdge old new s).flat = s.flat := by rw [timerEdge_frame s old new]
@[simp] theorem timerEdge_faulted (old new : Word) : (timerEdge old new s).faulted = s.faulted := by rw [timerEdge_frame s old new]
@[simp] theorem timerEdge_cycles (old new : Word) : (timerEdge old new s).cycles = s.cycles := by rw [timerEdge_frame s old new]
@[simp] theorem timerEdge_cfg (old new : Word) : (timerEdge old new s).cfg = s.cfg := by rw [timerEdge_frame s old new]
@[simp] theorem timerEdge_env (old new : Word) : (timerEdge old new s).env = s.env := by rw [timerEdge_frame s old new]
@[simp] theorem timerEdge_curOp (old new : Word) : (timerEdge old new s).curOp = s.curOp := by rw [timerEdge_frame s old new]
@[simp] theorem timerEdge_opaddr (old new : Word) : (timerEdge old new s).opaddr = s.opaddr := by rw [timerEdge_frame s old new]

@[simp] theorem applyReload_a : (applyReload s).a = s.a := by rw [applyReload_frame s]
@[simp] theorem applyReload_f : (applyReload s).f = s.f := by rw [applyReload_frame s]
@[simp] theorem applyReload_b : (applyReload s).b = s.b := by rw [applyReload_frame s]
@[simp] theorem applyReload_c : (applyReload s).c = s.c := by rw [applyReload_frame s]
@[simp] theorem applyReload_d : (applyReload s).d = s.d := by rw [applyReload_frame s]
@[simp] theorem applyReload_e : (applyReload s).e = s.e := by rw [applyReload_frame s]
@[simp] theorem applyReload_h : (applyReload s).h = s.h := by rw [applyReload_frame s]
@[simp] theorem applyReload_l : (applyReload s).l = s.l := by rw [applyReload_frame s]
@[simp] theorem applyReload_sp : (applyReload s).sp = s.sp := by rw [applyReload_frame s]
@[simp] theorem applyReload_pc : (applyReload s).pc = s.pc := by rw [applyReload_frame s]
@[simp] theorem applyReload_ime : (applyReload s).ime = s.ime := by rw [applyReload_frame s]
@[simp] theorem applyReload_ie : (applyReload s).ie = s.ie := by rw [applyReload_frame s]
@[simp] theorem applyReload_eiDelay : (applyReload s).eiDelay = s.eiDelay := by rw [applyReload_frame s]
@[simp] theorem applyReload_halted : (applyReload s).halted = s.halted := by rw [applyReload_frame s]
@[simp] theorem applyReload_haltBug : (applyReload s).haltBug = s.haltBug := by rw [applyReload_frame s]
@[simp] theorem applyReload_counter : (applyReload s).counter = s.counter := by rw [applyReload_frame s]
@[simp] theorem applyReload_tma : (applyReload s).tma = s.tma := by rw [applyReload_frame s]
@[simp] theorem applyReload_tac : (applyReload s).tac = s.tac := by rw [applyReload_frame s]
@[simp] theorem applyReload_reloadPending : (applyReload s).reloadPending = false := by rw [applyReload_frame s]
@[simp] theorem applyReload_registry : (applyReload s).registry = s.registry := by rw [applyReload_frame s]
@[simp] theorem applyReload_flat : (applyReload s).flat = s.flat := by rw [applyReload_frame s]
@[simp] theorem applyReload_faulted : (applyReload s).faulted = s.faulted := by rw [applyReload_frame s]
@[simp] theorem applyReload_cycles : (applyReload s).cycles = s.cycles := by rw [applyReload_frame s]
@[simp] theorem applyReload_cfg : (applyReload s).cfg = s.cfg := by rw [applyReload_frame s]
@[simp] theorem applyReload_env : (applyReload s).env = s.env := by rw [applyReload_frame s]
@[simp] theorem applyReload_curOp : (applyReload s).curOp = s.curOp := by rw [applyReload_frame s]
@[simp] theorem applyReload_opaddr : (applyReload s).opaddr = s.opaddr := by rw [applyReload_frame s]

@[simp] theorem notify_a (n : Nat) : (notify n s).a = s.a := by rw [notify_frame s n]
@[simp] theorem notify_f (n : Nat) : (notify n s).f = s.f := by rw [notify_frame s n]
@[simp] theorem notify_b (n : Nat) : (notify n s).b = s.b := by rw [notify_frame s n]
@[simp] theorem notify_c (n : Nat) : (notify n s).c = s.c := by rw [notify_frame s n]
@[simp] theorem notify_d (n : Nat) : (notify n s).d = s.d := by rw [notify_frame s n]
@[simp] theorem notify_e (n : Nat) : (notify n s).e = s.e := by rw [notify_frame s n]
@[simp] theorem notify_h (n : Nat) : (notify n s).h = s.h := by rw [notify_frame s n]
@[simp] theorem notify_l (n : Nat) : (notify n s).l = s.l := by rw [notify_frame s n]
@[simp] theorem notify_sp (n : Nat) : (notify n s).sp = s.sp := by rw [notify_frame s n]
@[simp] theorem notify_pc (n : Nat) : (notify n s).pc = s.pc := by rw [notify_frame s n]
@[simp] theorem notify_ime (n : Nat) : (notify n s).ime = s.ime := by rw [notify_frame s n]
@[simp] theorem notify_ie (n : Nat) : (notify n s).ie = s.ie := by rw [notify_frame s n]
@[simp] theorem notify_eiDelay (n : Nat) : (notify n s).eiDelay = s.eiDelay := by rw [notify_frame s n]
@[simp] theorem notify_halted (n : Nat) : (notify n s).halted = s.halted := by rw [notify_frame s n]
@[simp] theorem notify_haltBug (n : Nat) : (notify n s).haltBug = s.haltBug := by rw [notify_frame s n]
@[simp] theorem notify_counter (n : Nat) : (notify n s).counter = s.counter := by rw [notify_frame s n]
@[simp] theorem notify_tima (n : Nat) : (notify n s).tima = s.tima := by rw [notify_frame s n]
@[simp] theorem notify_tma (n : Nat) : (notify n s).tma = s.tma := by rw [notify_frame s n]
@[simp] theorem notify_tac (n : Nat) : (notify n s).tac = s.tac := by rw [notify_frame s n]
@[simp] theorem notify_reloadPending (n : Nat) : (notify n s).reloadPending = s.reloadPending := by rw [notify_frame s n]
@[simp] theorem notify_registry (n : Nat) : (notify n s).registry = s.registry := by rw [notify_frame s n]
@[simp] theorem notify_flat (n : Nat) : (notify n s).flat = s.flat := by rw [notify_frame s n]
@[simp] theorem notify_faulted (n : Nat) : (notify n s).faulted = s.faulted := by rw [notify_frame s n]
@[simp] theorem notify_cycles (n : Nat) : (notify n s).cycles = s.cycles := by rw [notify_frame s n]
@[simp] theorem notify_cfg (n : Nat) : (notify n s).cfg = s.cfg := by rw [notify_frame s n]
@[simp] theorem notify_curOp (n : Nat) : (notify n s).curOp = s.curOp := by rw [notify_frame s n]
@[simp] theorem notify_opaddr (n : Nat) : (notify n s).opaddr = s.opaddr := by rw [notify_frame s n]

@[simp] theorem resetDivider_a : (resetDivider s).a = s.a := by rw [resetDivider_frame s]
@[simp] theorem resetDivider_f : (resetDivider s).f = s.f := by rw [resetDivider_frame s]
@[simp] theorem resetDivider_b : (resetDivider s).b = s.b := by rw [resetDivider_frame s]
@[simp] theorem resetDivider_c : (resetDivider s).c = s.c := by rw [resetDivider_frame s]
@[simp] theorem resetDivider_d : (resetDivider s).d = s.d := by rw [resetDivider_frame s]
@[simp] theorem resetDivider_e : (resetDivider s).e = s.e := by rw [resetDivider_frame s]
@[simp] theorem resetDivider_h : (resetDivider s).h = s.h := by rw [resetDivider_frame s]
@[simp] theorem resetDivider_l : (resetDivider s).l = s.l := by rw [resetDivider_frame s]
@[simp] theorem resetDivider_sp : (resetDivider s).sp = s.sp := by rw [resetDivider_frame s]
@[simp] theorem resetDivider_pc : (resetDivider s).pc = s.pc := by rw [resetDivider_frame s]
@[simp] theorem resetDivider_ime : (resetDivider s).ime = s.ime := by rw [resetDivider_frame s]
@[simp] theorem resetDivider_ie : (resetDivider s).ie = s.ie := by rw [resetDivider_frame s]
@[simp] theorem resetDivider_ifr : (resetDivider s).ifr = s.ifr := by rw [resetDivider_frame s]
@[simp] theorem resetDivider_eiDelay : (resetDivider s).eiDelay = s.eiDelay := by rw [resetDivider_frame s]
@[simp] theorem resetDivider_halted : (resetDivider s).halted = s.halted := by rw [resetDivider_frame s]
@[simp] theorem resetDivider_haltBug : (resetDivider s).haltBug = s.haltBug := by rw [resetDivider_frame s]
@[simp] theorem resetDivider_counter : (resetDivider s).counter = 0 := by rw [resetDivider_frame s]
@[simp] theorem resetDivider_tma : (resetDivider s).tma = s.tma := by rw [resetDivider_frame s]
@[simp] theorem resetDivider_tac : (resetDivider s).tac = s.tac := by rw [resetDivider_frame s]
@[simp] theorem resetDivider_registry : (resetDivider s).registry = s.registry := by rw [resetDivider_frame s]
@[simp] theorem resetDivider_flat : (resetDivider s).flat = s.flat := by rw [resetDivider_frame s]
@[simp] theorem resetDivider_faulted : (resetDivider s).faulted = s.faulted := by rw [resetDivider_frame s]
@[simp] theorem resetDivider_cycles : (resetDivider s).cycles = s.cycles := by rw [resetDivider_frame s]
@[simp] theorem resetDivider_cfg : (resetDivider s).cfg = s.cfg := by rw [resetDivider_frame s]
@[simp] theorem resetDivider_env : (resetDivider s).env = s.env := by rw [resetDivider_frame s]
@[simp] theorem resetDivider_curOp : (resetDivider s).curOp = s.curOp := by rw [resetDivider_frame s]
@[simp] theorem resetDivider_opaddr : (resetDivider s).opaddr = s.opaddr := by rw [resetDivider_frame s]

@[simp] theorem tick_a : (tick s).a = s.a := by simp [tick, advanceCounter]
@[simp] theorem tick_f : (tick s).f = s.f := by simp [tick, advanceCounter]
@[simp] theorem tick_b : (tick s).b = s.b := by simp [tick, advanceCounter]
@[simp] theorem tick_c : (tick s).c = s.c := by simp [tick, advanceCounter]
@[simp] theorem tick_d : (tick s).d = s.d := by simp [tick, advanceCounter]
@[simp] theorem tick_e : (tick s).e = s.e := by simp [tick, advanceCounter]
@[simp] theorem tick_h : (tick s).h = s.h := by simp [tick, advanceCounter]
@[simp] theorem tick_l : (tick s).l = s.l := by simp [tick, advanceCounter]
@[simp] theorem tick_sp : (tick s).sp = s.sp := by simp [tick, advanceCounter]
@[simp] theorem tick_pc : (tick s).pc = s.pc := by simp [tick, advanceCounter]
@[simp] theorem tick_ime : (tick s).ime = s.ime := by simp [tick, advanceCounter]
@[simp] theorem tick_ie : (tick s).ie = s.ie := by simp [tick, advanceCounter]
@[simp] theorem tick_eiDelay : (tick s).eiDelay = s.eiDelay := by simp [tick, advanceCounter]
@[simp] theorem tick_halted : (tick s).halted = s.halted := by simp [tick, advanceCounter]
@[simp] theorem tick_haltBug : (tick s).haltBug = s.haltBug := by simp [tick, advanceCounter]
@[simp] theorem tick_counter : (tick s).counter = s.counter + 4 := by simp [tick, advanceCounter]
@[simp] theorem tick_tma : (tick s).tma = s.tma := by simp [tick, advanceCounter]
@[simp] theorem tick_tac : (tick s).tac = s.tac := by simp [tick, advanceCounter]
@[simp] theorem tick_registry : (tick s).registry = s.registry := by simp [tick, advanceCounter]
@[simp] theorem tick_flat : (tick s).flat = s.flat := by simp [tick, advanceCounter]
@[simp] theorem tick_faulted : (tick s).faulted = s.faulted := by simp [tick, advanceCounter]
@[simp] theorem tick_cycles : (tick s).cycles = s.cycles + 4 := by simp [tick, advanceCounter]
@[simp] theorem tick_cfg : (tick s).cfg = s.cfg := by simp [tick, advanceCounter]
@[simp] theorem tick_curOp : (tick s).curOp = s.curOp := by simp [tick, advanceCounter]
@[simp] theorem tick_opaddr : (tick s).opaddr = s.opaddr := by simp [tick, advanceCounter]

/-- Everything a tick can change: the timer, IF, the count of cycles and the environment (R340, R342). -/
theorem tick_frame :
    tick s =
      { s with
        counter := s.counter + 4, tima := (tick s).tima, ifr := (tick s).ifr, reloadPending := (tick s).reloadPending,
        cycles := s.cycles + 4, env := (tick s).env } := by
  ext1 <;> simp

@[simp] theorem tick_cpu : (tick s).cpu = s.cpu := by simp [State.cpu]

@[simp] theorem internal_eq : internal s = tick s := rfl

@[simp] theorem tick_hl : (tick s).hl = s.hl := by simp [State.hl]

@[simp] theorem tick_bc : (tick s).bc = s.bc := by simp [State.bc]

@[simp] theorem tick_de : (tick s).de = s.de := by simp [State.de]

@[simp] theorem tick_r8 (r : Reg8) : (tick s).r8 r = s.r8 r := by cases r <;> simp [State.r8]

@[simp] theorem tick_r16 (rr : Reg16) : (tick s).r16 rr = s.r16 rr := by cases rr <;> simp [State.r16]

@[simp] theorem tick_stk (qq : RegStk) : (tick s).stk qq = s.stk qq := by cases qq <;> simp [State.stk, State.af]

@[simp] theorem tick_cond (cc : Cond) : (tick s).cond cc = s.cond cc := by
  cases cc <;> simp [State.cond, State.flagZ, State.flagC]

/-! ### What the parts of a tick compute -/

/-- `IncrementTima()` (R341): the wrap to 0 sets the pending reload. -/
theorem incrementTima_wrap (h : s.tima = 0xFF) : incrementTima s = { s with tima := 0, reloadPending := true } := by
  simp [incrementTima, h]

theorem incrementTima_plain (h : s.tima ≠ 0xFF) : incrementTima s = { s with tima := s.tima + 1 } := by
  have : s.tima + 1 ≠ 0 := by
    intro hz
    apply h
    have := congrArg (· - 1#8) hz
    simpa using this
  unfold incrementTima
  rw [if_neg this]

/-- On the flat platform `Notify` does nothing (R64). -/
theorem notify_flatPlatform (n : Nat) (h : s.cfg.platform = .flat) : notify n s = s := by simp [notify, h]

/-! ### What has no part in a tick -/

theorem timerEdge_withCpu (old new : Word) (p : Cpu) :
    timerEdge old new (s.withCpu p) = (timerEdge old new s).withCpu p := by
  conv_rhs => unfold timerEdge; rw [apply_ite (fun x : State => x.withCpu p)]
  rfl

theorem applyReload_withCpu (p : Cpu) : applyReload (s.withCpu p) = (applyReload s).withCpu p := by
  conv_rhs => unfold applyReload; rw [apply_ite (fun x : State => x.withCpu p)]
  rfl

theorem notify_withCpu (n : Nat) (p : Cpu) : notify n (s.withCpu p) = (notify n s).withCpu p := by
  cases h : s.cfg.platform <;> simp [notify, State.withCpu, h]

/-- What the CPU engine holds has no part in a tick. -/
theorem tick_withCpu (p : Cpu) : tick (s.withCpu p) = (tick s).withCpu p := by
  have h : advanceCounter (applyReload (s.withCpu p)) = (advanceCounter (applyReload s)).withCpu p := by
    rw [applyReload_withCpu]
    exact timerEdge_withCpu { applyReload s with counter := (applyReload s).counter + 4 } _ _ p
  unfold tick
  rw [h]
  exact notify_withCpu { advanceCounter (applyReload s) with cycles := (advanceCounter (applyReload s)).cycles + 4 } 4 p

/-- The state with `flat` replaced. -/
def State.withFlat (s : State) (m : Memory) : State := { s with flat := m }

theorem timerEdge_withFlat (old new : Word) (m : Memory) :
    timerEdge old new (s.withFlat m) = (timerEdge old new s).withFlat m := by
  conv_rhs => unfold timerEdge; rw [apply_ite (fun x : State => x.withFlat m)]
  rfl

theorem applyReload_withFlat (m : Memory) : applyReload (s.withFlat m) = (applyReload s).withFlat m := by
  conv_rhs => unfold applyReload; rw [apply_ite (fun x : State => x.withFlat m)]
  rfl

theorem notify_withFlat (n : Nat) (m : Memory) : notify n (s.withFlat m) = (notify n s).withFlat m := by
  cases h : s.cfg.platform <;> simp [notify, State.withFlat, h]

theorem tick_withFlat (m : Memory) : tick (s.withFlat m) = (tick s).withFlat m := by
  have h : advanceCounter (applyReload (s.withFlat m)) = (advanceCounter (applyReload s)).withFlat m := by
    rw [applyReload_withFlat]
    exact timerEdge_withFlat { applyReload s with counter := (applyReload s).counter + 4 } _ _ m
  unfold tick
  rw [h]
  exact notify_withFlat { advanceCounter (applyReload s) with cycles := (advanceCounter (applyReload s)).cycles + 4 } 4 m

/-- Memory has no part in a tick. -/
theorem tick_setFlat (m : Memory) : tick { s with flat := m } = { tick s with flat := m } := tick_withFlat s m

theorem ticks_succ (n : Nat) : ticks (n + 1) s = ticks n (tick s) := rfl

theorem ticks_zero : ticks 0 s = s := rfl

@[simp] theorem ticks_cpu (n : Nat) : (ticks n s).cpu = s.cpu := by
  induction n generalizing s with
  | zero => rfl
  | succ k ih => rw [ticks_succ, ih, tick_cpu]

@[simp] theorem ticks_flat (n : Nat) : (ticks n s).flat = s.flat := by
  induction n generalizing s with
  | zero => rfl
  | succ k ih => rw [ticks_succ, ih, tick_flat]

@[simp] theorem ticks_cfg (n : Nat) : (ticks n s).cfg = s.cfg := by
  induction n generalizing s with
  | zero => rfl
  | succ k ih => rw [ticks_succ, ih, tick_cfg]

@[simp] theorem ticks_registry (n : Nat) : (ticks n s).registry = s.registry := by
  induction n generalizing s with
  | zero => rfl
  | succ k ih => rw [ticks_succ, ih, tick_registry]

theorem ticks_cycles (n : Nat) : (ticks n s).cycles = s.cycles + 4 * n := by
  induction n generalizing s with
  | zero => rfl
  | succ k ih => rw [ticks_succ, ih, tick_cycles]; omega

end Sys2Proof.Machine
end

