-- ==== Sys2Proof/Laws/Bus.lean ====
section
/-! SUPPORT. What the bus and the timed accesses can do, said once: the cases of a read, the frame of a write, and both on plain
memory. -/

namespace Sys2Proof.Machine

/-! ### Flow -/

variable {α β : Type}

@[simp] theorem Flow.bind_ok (v : α) (s : State) (k : α → State → Flow β) : (Flow.ok v s).bind k = k v s := rfl

@[simp] theorem Flow.bind_raised (s : State) (k : α → State → Flow β) : (Flow.raised s : Flow α).bind k = .raised s := rfl

@[simp] theorem Flow.map_ok (v : α) (s : State) (k : α → State → β × State) :
    (Flow.ok v s).map k = .ok (k v s).1 (k v s).2 := rfl

@[simp] theorem Flow.map_raised (s : State) (k : α → State → β × State) : (Flow.raised s : Flow α).map k = .raised s := rfl

@[simp] theorem Flow.finish_ok (v : α) (s : State) (k : α → State → State) : (Flow.ok v s).finish k = .next (k v s) := rfl

@[simp] theorem Flow.finish_raised (s : State) (k : α → State → State) : (Flow.raised s : Flow α).finish k = .next s := rfl

/-- A meaning that ends in `finish` always answers a next state: that of its last statements, or the one in which a fault was
raised. -/
theorem Flow.finish_next (x : Flow α) (k : α → State → State) : ∃ t, x.finish k = .next t := by cases x <;> simp

variable (s : State)

/-! ### Reads -/

theorem readHandler_cases (h : Handler) (a : Word) :
    ∃ v e, readHandler h a s = .ok v { s with env := e } := by
  cases h with
  | core r => exact ⟨readCore r s, s.env, rfl⟩
  | peripheral => exact ⟨_, _, rfl⟩

/-- A bus read answers a byte and changes at most the environment, or raises `HandlerMissing` and changes only `faulted`
(R68, R73, R322). -/
theorem busRead_cases (a : Word) :
    (readable a s = true ∧ ∃ v e, busRead a s = .ok v { s with env := e }) ∨
      (readable a s = false ∧ busRead a s = .raised (raiseFault .handlerMissing a s)) := by
  unfold busRead readable
  cases hw : inWindow s.cfg a with
  | false => exact .inl ⟨by simp, platformRead a s, s.env, by simp⟩
  | true =>
    cases hl : s.registry.lookup a with
    | some h =>
      obtain ⟨v, e, he⟩ := readHandler_cases s h a
      exact .inl ⟨by simp, v, e, by simpa using he⟩
    | none =>
      cases hm : s.cfg.mustHaveHandler.contains a with
      | true => exact .inr ⟨by simp, by simp⟩
      | false => exact .inl ⟨by simp, s.flat.read a, s.env, by simp⟩

@[simp] theorem readable_tick (a : Word) : readable a (tick s) = readable a s := by simp [readable]

/-- A read that cannot raise answers a byte. -/
theorem busRead_readable (a : Word) (h : readable a s = true) : ∃ v e, busRead a s = .ok v { s with env := e } := by
  rcases busRead_cases s a with ⟨-, he⟩ | ⟨hn, -⟩
  · exact he
  · rw [h] at hn; cases hn

/-- Plain memory is read from `flat`. -/
theorem busRead_plain (a : Word) (h : plainAt s a = true) : busRead a s = .ok (s.flat.read a) s := by
  unfold plainAt at h
  unfold busRead platformRead
  split at h <;> rename_i hw
  · simp only [Bool.and_eq_true, Bool.not_eq_true', Option.isNone_iff_eq_none] at h
    simp only [hw, if_true, h.1, h.2]
    rfl
  · simp only [beq_iff_eq] at h
    simp [hw, h]

theorem readable_plain (a : Word) (h : plainAt s a = true) : readable a s = true := by
  unfold plainAt at h
  unfold readable
  split at h <;> rename_i hw
  · simp only [Bool.and_eq_true, Bool.not_eq_true'] at h
    rw [h.2, Bool.and_false]
    rfl
  · simp [hw]

@[simp] theorem plainAt_tick (a : Word) : plainAt (tick s) a = plainAt s a := by simp [plainAt]

/-! ### Writes -/

theorem writeCore_frame (r : CoreReg) (v : Byte) :
    writeCore r v s =
      { s with
        ie := (writeCore r v s).ie, ifr := (writeCore r v s).ifr, counter := (writeCore r v s).counter
        tima := (writeCore r v s).tima, tma := (writeCore r v s).tma, tac := (writeCore r v s).tac
        reloadPending := (writeCore r v s).reloadPending } := by
  cases r <;> first
    | rfl
    | exact resetDivider_frame s |>.trans (by simp [writeCore])

/-- Everything a bus write can change (R69, R72): never the CPU engine's part, never `faulted`, `cycles` or the construction. -/
theorem busWrite_frame (a : Word) (v : Byte) :
    busWrite a v s =
      { s with
        ie := (busWrite a v s).ie, ifr := (busWrite a v s).ifr, counter := (busWrite a v s).counter
        tima := (busWrite a v s).tima, tma := (busWrite a v s).tma, tac := (busWrite a v s).tac
        reloadPending := (busWrite a v s).reloadPending, flat := (busWrite a v s).flat, env := (busWrite a v s).env } := by
  have hc (r : CoreReg) (t : State) (h : t = writeCore r v s) :
      t = { s with
            ie := t.ie, ifr := t.ifr, counter := t.counter, tima := t.tima, tma := t.tma, tac := t.tac
            reloadPending := t.reloadPending, flat := t.flat, env := t.env } := by
    subst h
    have hf := writeCore_frame s r v
    have h1 : (writeCore r v s).flat = s.flat := by rw [hf]
    have h2 : (writeCore r v s).env = s.env := by rw [hf]
    rw [h1, h2]
    exact hf
  generalize ht : busWrite a v s = t
  unfold busWrite at ht
  split at ht
  · split at ht
    · rename_i hd _
      cases hd with
      | core r => exact hc r t ht.symm
      | peripheral =>
        simp only [writeHandler] at ht
        split at ht <;> subst ht <;> rfl
    · subst ht; rfl
  · unfold platformWrite at ht
    split at ht <;> subst ht <;> rfl

@[simp] theorem busWrite_a (a : Word) (v : Byte) : (busWrite a v s).a = s.a := by rw [busWrite_frame]
@[simp] theorem busWrite_f (a : Word) (v : Byte) : (busWrite a v s).f = s.f := by rw [busWrite_frame]
@[simp] theorem busWrite_b (a : Word) (v : Byte) : (busWrite a v s).b = s.b := by rw [busWrite_frame]
@[simp] theorem busWrite_c (a : Word) (v : Byte) : (busWrite a v s).c = s.c := by rw [busWrite_frame]
@[simp] theorem busWrite_d (a : Word) (v : Byte) : (busWrite a v s).d = s.d := by rw [busWrite_frame]
@[simp] theorem busWrite_e (a : Word) (v : Byte) : (busWrite a v s).e = s.e := by rw [busWrite_frame]
@[simp] theorem busWrite_h (a : Word) (v : Byte) : (busWrite a v s).h = s.h := by rw [busWrite_frame]
@[simp] theorem busWrite_l (a : Word) (v : Byte) : (busWrite a v s).l = s.l := by rw [busWrite_frame]
@[simp] theorem busWrite_sp (a : Word) (v : Byte) : (busWrite a v s).sp = s.sp := by rw [busWrite_frame]
@[simp] theorem busWrite_pc (a : Word) (v : Byte) : (busWrite a v s).pc = s.pc := by rw [busWrite_frame]
@[simp] theorem busWrite_ime (a : Word) (v : Byte) : (busWrite a v s).ime = s.ime := by rw [busWrite_frame]
@[simp] theorem busWrite_eiDelay (a : Word) (v : Byte) : (busWrite a v s).eiDelay = s.eiDelay := by rw [busWrite_frame]
@[simp] theorem busWrite_halted (a : Word) (v : Byte) : (busWrite a v s).halted = s.halted := by rw [busWrite_frame]
@[simp] theorem busWrite_haltBug (a : Word) (v : Byte) : (busWrite a v s).haltBug = s.haltBug := by rw [busWrite_frame]
@[simp] theorem busWrite_faulted (a : Word) (v : Byte) : (busWrite a v s).faulted = s.faulted := by rw [busWrite_frame]
@[simp] theorem busWrite_curOp (a : Word) (v : Byte) : (busWrite a v s).curOp = s.curOp := by rw [busWrite_frame]
@[simp] theorem busWrite_opaddr (a : Word) (v : Byte) : (busWrite a v s).opaddr = s.opaddr := by rw [busWrite_frame]
@[simp] theorem busWrite_cfg (a : Word) (v : Byte) : (busWrite a v s).cfg = s.cfg := by rw [busWrite_frame]
@[simp] theorem busWrite_registry (a : Word) (v : Byte) : (busWrite a v s).registry = s.registry := by rw [busWrite_frame]
@[simp] theorem busWrite_cycles (a : Word) (v : Byte) : (busWrite a v s).cycles = s.cycles := by rw [busWrite_frame]

theorem busWrite_plain (a : Word) (v : Byte) (h : plainAt s a = true) :
    busWrite a v s = { s with flat := s.flat.write a v } := by
  unfold plainAt at h
  unfold busWrite platformWrite
  split at h <;> rename_i hw
  · simp only [Bool.and_eq_true, Option.isNone_iff_eq_none] at h
    simp only [hw, if_true, h.1]
  · simp only [beq_iff_eq] at h
    simp [hw, h]

/-- A bus write changes no byte of `flat` but the one addressed. -/
theorem busWrite_flat_read (a b : Word) (v : Byte) (h : b ≠ a) : (busWrite a v s).flat.read b = s.flat.read b := by
  have hw : (s.flat.write a v).read b = s.flat.read b := Memory.read_write_ne h v
  have hc (r : CoreReg) : (writeCore r v s).flat = s.flat := by rw [writeCore_frame]
  unfold busWrite
  split
  · split
    · rename_i hd _
      cases hd with
      | core r => simp [writeHandler, hc]
      | peripheral => simp only [writeHandler]; split <;> simp [hw]
    · exact hw
  · unfold platformWrite; split <;> simp [hw]

theorem busWrite_wf (a : Word) (v : Byte) (h : s.flat.wf = true) : (busWrite a v s).flat.wf = true := by
  have hw : (s.flat.write a v).wf = true := Memory.wf_write h a v
  have hc (r : CoreReg) : (writeCore r v s).flat = s.flat := by rw [writeCore_frame]
  unfold busWrite
  split
  · split
    · rename_i hd _
      cases hd with
      | core r => simp [writeHandler, hc, h]
      | peripheral => simp only [writeHandler]; split <;> simp [hw, h]
    · exact hw
  · unfold platformWrite; split <;> simp [hw, h]

theorem resetDivider_aligned (s : State) : (resetDivider s).counter.toNat % 4 = 0 := by simp

theorem writeCore_aligned (r : CoreReg) (v : Byte) (h : s.counter.toNat % 4 = 0) :
    (writeCore r v s).counter.toNat % 4 = 0 := by
  cases r <;> simp [writeCore, h]

theorem busWrite_aligned (a : Word) (v : Byte) (h : s.counter.toNat % 4 = 0) : (busWrite a v s).counter.toNat % 4 = 0 := by
  unfold busWrite
  split
  · split
    · rename_i hd _
      cases hd with
      | core r => simp [writeHandler, writeCore_aligned s r v h]
      | peripheral => simp only [writeHandler]; split <;> simp [h]
    · exact h
  · unfold platformWrite; split <;> simp [h]

theorem tick_aligned (h : s.counter.toNat % 4 = 0) : (tick s).counter.toNat % 4 = 0 := by
  rw [tick_counter, BitVec.toNat_add]
  have : (4 : Word).toNat = 4 := rfl
  omega

/-! ### Timed accesses -/

/-- A timed read answers a byte and changes at most what a tick changes, or ends the step with `HandlerMissing` recorded (R74,
R322). -/
theorem memRead_cases (a : Word) :
    (readable a s = true ∧
        ∃ v t, memRead a s = .ok v t ∧
          t = { s with
                counter := s.counter + 4, tima := t.tima, ifr := t.ifr, reloadPending := t.reloadPending
                cycles := s.cycles + 4, env := t.env }) ∨
      (readable a s = false ∧
        memRead a s =
          .raised
            (match s.cfg.accessPhase with
            | .accessThenTick => raiseFault .handlerMissing a s
            | .tickThenAccess => raiseFault .handlerMissing a (tick s))) := by
  unfold memRead
  cases s.cfg.accessPhase with
  | accessThenTick =>
    rcases busRead_cases s a with ⟨h, v, e, he⟩ | ⟨h, he⟩
    · exact .inl ⟨h, v, tick { s with env := e }, by simp [he], tick_frame _⟩
    · exact .inr ⟨h, by simp [he]⟩
  | tickThenAccess =>
    rcases busRead_cases (tick s) a with ⟨h, v, e, he⟩ | ⟨h, he⟩
    · refine .inl ⟨by simpa using h, v, _, he, ?_⟩
      ext1 <;> simp
    · exact .inr ⟨by simpa using h, he⟩

theorem memRead_readable (a : Word) (h : readable a s = true) :
    ∃ v t, memRead a s = .ok v t ∧
      t = { s with
            counter := s.counter + 4, tima := t.tima, ifr := t.ifr, reloadPending := t.reloadPending
            cycles := s.cycles + 4, env := t.env } := by
  rcases memRead_cases s a with ⟨-, he⟩ | ⟨hn, -⟩
  · exact he
  · rw [h] at hn; cases hn

/-- What a timed read that answers leaves alone. -/
theorem memRead_frame {a : Word} {v : Byte} {t : State} (h : memRead a s = .ok v t) :
    t = { s with
          counter := s.counter + 4, tima := t.tima, ifr := t.ifr, reloadPending := t.reloadPending
          cycles := s.cycles + 4, env := t.env } := by
  rcases memRead_cases s a with ⟨-, v', t', he, hf⟩ | ⟨-, he⟩
  · rw [h] at he; cases he; exact hf
  · rw [h] at he; cases he

theorem memRead_plain (a : Word) (h : plainAt s a = true) : memRead a s = .ok (s.flat.read a) (tick s) := by
  unfold memRead
  cases s.cfg.accessPhase with
  | accessThenTick => simp [busRead_plain s a h]
  | tickThenAccess => simpa using busRead_plain (tick s) a (by simpa using h)

/-- Everything a timed write can change (R75). -/
theorem memWrite_frame (a : Word) (v : Byte) :
    memWrite a v s =
      { s with
        ie := (memWrite a v s).ie, ifr := (memWrite a v s).ifr, counter := (memWrite a v s).counter
        tima := (memWrite a v s).tima, tma := (memWrite a v s).tma, tac := (memWrite a v s).tac
        reloadPending := (memWrite a v s).reloadPending, flat := (memWrite a v s).flat, cycles := s.cycles + 4
        env := (memWrite a v s).env } := by
  unfold memWrite
  cases s.cfg.accessPhase <;> ext1 <;> simp

@[simp] theorem memWrite_a (a : Word) (v : Byte) : (memWrite a v s).a = s.a := by rw [memWrite_frame]
@[simp] theorem memWrite_f (a : Word) (v : Byte) : (memWrite a v s).f = s.f := by rw [memWrite_frame]
@[simp] theorem memWrite_b (a : Word) (v : Byte) : (memWrite a v s).b = s.b := by rw [memWrite_frame]
@[simp] theorem memWrite_c (a : Word) (v : Byte) : (memWrite a v s).c = s.c := by rw [memWrite_frame]
@[simp] theorem memWrite_d (a : Word) (v : Byte) : (memWrite a v s).d = s.d := by rw [memWrite_frame]
@[simp] theorem memWrite_e (a : Word) (v : Byte) : (memWrite a v s).e = s.e := by rw [memWrite_frame]
@[simp] theorem memWrite_h (a : Word) (v : Byte) : (memWrite a v s).h = s.h := by rw [memWrite_frame]
@[simp] theorem memWrite_l (a : Word) (v : Byte) : (memWrite a v s).l = s.l := by rw [memWrite_frame]
@[simp] theorem memWrite_sp (a : Word) (v : Byte) : (memWrite a v s).sp = s.sp := by rw [memWrite_frame]
@[simp] theorem memWrite_pc (a : Word) (v : Byte) : (memWrite a v s).pc = s.pc := by rw [memWrite_frame]
@[simp] theorem memWrite_ime (a : Word) (v : Byte) : (memWrite a v s).ime = s.ime := by rw [memWrite_frame]
@[simp] theorem memWrite_eiDelay (a : Word) (v : Byte) : (memWrite a v s).eiDelay = s.eiDelay := by rw [memWrite_frame]
@[simp] theorem memWrite_halted (a : Word) (v : Byte) : (memWrite a v s).halted = s.halted := by rw [memWrite_frame]
@[simp] theorem memWrite_haltBug (a : Word) (v : Byte) : (memWrite a v s).haltBug = s.haltBug := by rw [memWrite_frame]
@[simp] theorem memWrite_faulted (a : Word) (v : Byte) : (memWrite a v s).faulted = s.faulted := by rw [memWrite_frame]
@[simp] theorem memWrite_curOp (a : Word) (v : Byte) : (memWrite a v s).curOp = s.curOp := by rw [memWrite_frame]
@[simp] theorem memWrite_opaddr (a : Word) (v : Byte) : (memWrite a v s).opaddr = s.opaddr := by rw [memWrite_frame]
@[simp] theorem memWrite_cfg (a : Word) (v : Byte) : (memWrite a v s).cfg = s.cfg := by rw [memWrite_frame]
@[simp] theorem memWrite_registry (a : Word) (v : Byte) : (memWrite a v s).registry = s.registry := by rw [memWrite_frame]
@[simp] theorem memWrite_cycles (a : Word) (v : Byte) : (memWrite a v s).cycles = s.cycles + 4 := by rw [memWrite_frame]

theorem memWrite_plain (a : Word) (v : Byte) (h : plainAt s a = true) :
    memWrite a v s = { tick s with flat := s.flat.write a v } := by
  unfold memWrite
  cases s.cfg.accessPhase with
  | accessThenTick => show tick (busWrite a v s) = _; rw [busWrite_plain s a v h]; exact tick_setFlat s _
  | tickThenAccess => simp only [busWrite_plain (tick s) a v (by simpa using h), tick_flat]

theorem memWrite_flat_read (a b : Word) (v : Byte) (h : b ≠ a) : (memWrite a v s).flat.read b = s.flat.read b := by
  unfold memWrite
  cases s.cfg.accessPhase <;> simp [busWrite_flat_read _ a b v h]

theorem memWrite_wf (a : Word) (v : Byte) (h : s.flat.wf = true) : (memWrite a v s).flat.wf = true := by
  unfold memWrite
  cases s.cfg.accessPhase
  · simpa using busWrite_wf s a v h
  · exact busWrite_wf (tick s) a v (by simpa using h)

theorem memWrite_aligned (a : Word) (v : Byte) (h : s.counter.toNat % 4 = 0) : (memWrite a v s).counter.toNat % 4 = 0 := by
  unfold memWrite
  cases s.cfg.accessPhase
  · exact tick_aligned _ (busWrite_aligned s a v h)
  · exact busWrite_aligned (tick s) a v (tick_aligned s h)

@[simp] theorem memWrite_hl (a : Word) (v : Byte) : (memWrite a v s).hl = s.hl := by simp [State.hl]

@[simp] theorem readable_memWrite (a b : Word) (v : Byte) : readable b (memWrite a v s) = readable b s := by simp [readable]

@[simp] theorem plainAt_memWrite (a b : Word) (v : Byte) : plainAt (memWrite a v s) b = plainAt s b := by simp [plainAt]

end Sys2Proof.Machine
end

