-- ==== Sys2Proof/Laws/Access.lean ====
section
/-! SUPPORT. The timed operations in the vocabulary of the statements (Sys2Proof/Safety.lean): what a tick, a read, a write, a push,
a pop and the shared bodies of the instructions do, said once. -/

namespace Sys2Proof.Machine

variable (s : State)

/-! ### Time -/

theorem OnlyTime.refl : OnlyTime 0 s s := by
  unfold OnlyTime
  ext1 <;> simp

theorem onlyTime_tick : OnlyTime 1 s (tick s) := tick_frame s

theorem OnlyTime.a {n : Nat} {s t : State} (q : OnlyTime n s t) : t.a = s.a := (congrArg State.a q :)
theorem OnlyTime.f {n : Nat} {s t : State} (q : OnlyTime n s t) : t.f = s.f := (congrArg State.f q :)
theorem OnlyTime.b {n : Nat} {s t : State} (q : OnlyTime n s t) : t.b = s.b := (congrArg State.b q :)
theorem OnlyTime.c {n : Nat} {s t : State} (q : OnlyTime n s t) : t.c = s.c := (congrArg State.c q :)
theorem OnlyTime.d {n : Nat} {s t : State} (q : OnlyTime n s t) : t.d = s.d := (congrArg State.d q :)
theorem OnlyTime.e {n : Nat} {s t : State} (q : OnlyTime n s t) : t.e = s.e := (congrArg State.e q :)
theorem OnlyTime.h {n : Nat} {s t : State} (q : OnlyTime n s t) : t.h = s.h := (congrArg State.h q :)
theorem OnlyTime.l {n : Nat} {s t : State} (q : OnlyTime n s t) : t.l = s.l := (congrArg State.l q :)
theorem OnlyTime.sp {n : Nat} {s t : State} (q : OnlyTime n s t) : t.sp = s.sp := (congrArg State.sp q :)
theorem OnlyTime.pc {n : Nat} {s t : State} (q : OnlyTime n s t) : t.pc = s.pc := (congrArg State.pc q :)
theorem OnlyTime.ime {n : Nat} {s t : State} (q : OnlyTime n s t) : t.ime = s.ime := (congrArg State.ime q :)
theorem OnlyTime.ie {n : Nat} {s t : State} (q : OnlyTime n s t) : t.ie = s.ie := (congrArg State.ie q :)
theorem OnlyTime.eiDelay {n : Nat} {s t : State} (q : OnlyTime n s t) : t.eiDelay = s.eiDelay := (congrArg State.eiDelay q :)
theorem OnlyTime.halted {n : Nat} {s t : State} (q : OnlyTime n s t) : t.halted = s.halted := (congrArg State.halted q :)
theorem OnlyTime.haltBug {n : Nat} {s t : State} (q : OnlyTime n s t) : t.haltBug = s.haltBug := (congrArg State.haltBug q :)
theorem OnlyTime.counter {n : Nat} {s t : State} (q : OnlyTime n s t) : t.counter = s.counter + BitVec.ofNat 16 (4 * n) := (congrArg State.counter q :)
theorem OnlyTime.tma {n : Nat} {s t : State} (q : OnlyTime n s t) : t.tma = s.tma := (congrArg State.tma q :)
theorem OnlyTime.tac {n : Nat} {s t : State} (q : OnlyTime n s t) : t.tac = s.tac := (congrArg State.tac q :)
theorem OnlyTime.registry {n : Nat} {s t : State} (q : OnlyTime n s t) : t.registry = s.registry := (congrArg State.registry q :)
theorem OnlyTime.flat {n : Nat} {s t : State} (q : OnlyTime n s t) : t.flat = s.flat := (congrArg State.flat q :)
theorem OnlyTime.faulted {n : Nat} {s t : State} (q : OnlyTime n s t) : t.faulted = s.faulted := (congrArg State.faulted q :)
theorem OnlyTime.cycles {n : Nat} {s t : State} (q : OnlyTime n s t) : t.cycles = s.cycles + 4 * n := (congrArg State.cycles q :)
theorem OnlyTime.cfg {n : Nat} {s t : State} (q : OnlyTime n s t) : t.cfg = s.cfg := (congrArg State.cfg q :)
theorem OnlyTime.curOp {n : Nat} {s t : State} (q : OnlyTime n s t) : t.curOp = s.curOp := (congrArg State.curOp q :)
theorem OnlyTime.opaddr {n : Nat} {s t : State} (q : OnlyTime n s t) : t.opaddr = s.opaddr := (congrArg State.opaddr q :)

theorem OnlyTime.trans {m n : Nat} {s t u : State} (q : OnlyTime m s t) (q' : OnlyTime n t u) : OnlyTime (m + n) s u := by
  unfold OnlyTime
  ext1 <;> first | rfl | skip
  · rw [q'.a, q.a]
  · rw [q'.f, q.f]
  · rw [q'.b, q.b]
  · rw [q'.c, q.c]
  · rw [q'.d, q.d]
  · rw [q'.e, q.e]
  · rw [q'.h, q.h]
  · rw [q'.l, q.l]
  · rw [q'.sp, q.sp]
  · rw [q'.pc, q.pc]
  · rw [q'.ime, q.ime]
  · rw [q'.ie, q.ie]
  · rw [q'.eiDelay, q.eiDelay]
  · rw [q'.halted, q.halted]
  · rw [q'.haltBug, q.haltBug]
  · rw [q'.counter, q.counter, BitVec.add_assoc, ← BitVec.ofNat_add, ← Nat.mul_add]
  · rw [q'.tma, q.tma]
  · rw [q'.tac, q.tac]
  · rw [q'.registry, q.registry]
  · rw [q'.flat, q.flat]
  · rw [q'.faulted, q.faulted]
  · rw [q'.cycles, q.cycles, Nat.add_assoc, ← Nat.mul_add]
  · rw [q'.cfg, q.cfg]
  · rw [q'.curOp, q.curOp]
  · rw [q'.opaddr, q.opaddr]

theorem onlyTime_ticks (n : Nat) : OnlyTime n s (ticks n s) := by
  induction n generalizing s with
  | zero => exact .refl s
  | succ k ih =>
    rw [show k + 1 = 1 + k from Nat.add_comm k 1]
    rw [show ticks (1 + k) s = ticks k (tick s) from by rw [Nat.add_comm]; rfl]
    exact (onlyTime_tick s).trans (ih (tick s))

/-- `n` ticks are `n` internal M-cycles (R76). -/
theorem waits_ticks (n : Nat) : Waits n s (ticks n s) := ⟨rfl, onlyTime_ticks s n⟩

theorem waits_tick : Waits 1 s (tick s) := waits_ticks s 1

theorem OnlyTime.cpu {n : Nat} {s t : State} (h : OnlyTime n s t) : t.cpu = s.cpu := by
  unfold OnlyTime at h
  rw [h]
  rfl

/-! ### Reads and writes -/

theorem reads_of_memRead {s : State} {a : Word} {v : Byte} {u : State} (h : memRead a s = .ok v u) : Reads a s v u := by
  refine ⟨h, memRead_frame s h, fun hp => ?_⟩
  rw [memRead_plain s a hp] at h
  cases h
  exact ⟨rfl, rfl⟩

theorem reads_of_readable {a : Word} (h : readable a s = true) : ∃ v u, memRead a s = .ok v u ∧ Reads a s v u := by
  obtain ⟨v, u, he, -⟩ := memRead_readable s a h
  exact ⟨v, u, he, reads_of_memRead he⟩

theorem stores_memWrite (a : Word) (v : Byte) : Stores a v s (memWrite a v s) := by
  refine ⟨rfl, memWrite_frame s a v, fun b hb => memWrite_flat_read s a b v hb, memWrite_plain s a v, fun hp hw => ?_⟩
  rw [memWrite_plain s a v hp]
  exact Memory.read_write_same hw a v

/-! ### The stack -/

theorem pushes_push16 (v : Word) : Pushes v s (push16 v s) := by
  refine ⟨_, stores_memWrite _ _ _, ?_⟩
  have h2 : s.sp - 1 - 1 = s.sp - 2 := by rw [BitVec.sub_sub]; rfl
  simp only [push16, memWrite_sp, h2]
  exact stores_memWrite _ _ _

/-- Everything a push can change. -/
theorem push16_frame (v : Word) :
    push16 v s =
      { s with
        sp := s.sp - 2, ie := (push16 v s).ie, ifr := (push16 v s).ifr, counter := (push16 v s).counter
        tima := (push16 v s).tima, tma := (push16 v s).tma, tac := (push16 v s).tac
        reloadPending := (push16 v s).reloadPending, flat := (push16 v s).flat, cycles := s.cycles + 8
        env := (push16 v s).env } := by
  have h2 : s.sp - 1 - 1 = s.sp - 2 := by rw [BitVec.sub_sub]; rfl
  have h3 : (push16 v s).sp = s.sp - 2 := by rw [← h2]; unfold push16; simp only [memWrite_sp]
  ext1 <;> first | rfl | exact h3 | simp [push16]

/-- `sp` and memory have no part in a tick. -/
theorem tick_setSpFlat (x : Word) (m : Memory) : tick { s with sp := x, flat := m } = { tick s with sp := x, flat := m } := by
  have h := tick_withCpu (s.withFlat m) { s.cpu with sp := x }
  rw [tick_withFlat] at h
  rw [show ({ s with sp := x, flat := m } : State) = (s.withFlat m).withCpu { s.cpu with sp := x } from rfl, h]
  ext1 <;> simp [State.withCpu, State.cpu, State.withFlat]

/-- A push onto plain memory. -/
theorem push16_plain (v : Word) (h1 : plainAt s (s.sp - 1) = true) (h2 : plainAt s (s.sp - 2) = true) :
    push16 v s =
      { ticks 2 s with
        sp := s.sp - 2, flat := (s.flat.write (s.sp - 1) (hiByte v)).write (s.sp - 2) (loByte v) } := by
  have hs : s.sp - 1 - 1 = s.sp - 2 := by rw [BitVec.sub_sub]; rfl
  have e1 : memWrite (s.sp - 1) (hiByte v) { s with sp := s.sp - 1 } =
      { tick s with sp := s.sp - 1, flat := s.flat.write (s.sp - 1) (hiByte v) } := by
    rw [memWrite_plain _ _ _ (by exact h1)]
    rw [show ({ s with sp := s.sp - 1 } : State) = { s with sp := s.sp - 1, flat := s.flat } from rfl,
      tick_setSpFlat s (s.sp - 1) s.flat]
  have hp : plainAt { tick s with sp := s.sp - 2, flat := s.flat.write (s.sp - 1) (hiByte v) } (s.sp - 2) = true := by
    simpa [plainAt] using h2
  unfold push16
  simp only [e1, hs]
  rw [memWrite_plain _ _ _ hp, tick_setSpFlat]
  rfl

theorem push16_cpu (v : Word) : (push16 v s).cpu = { s.cpu with sp := s.sp - 2 } := by
  rw [push16_frame]
  rfl

theorem push16_wf (v : Word) (h : s.flat.wf = true) : (push16 v s).flat.wf = true :=
  memWrite_wf _ _ _ (memWrite_wf _ _ _ h)

theorem push16_aligned (v : Word) (h : s.counter.toNat % 4 = 0) : (push16 v s).counter.toNat % 4 = 0 :=
  memWrite_aligned _ _ _ (memWrite_aligned _ _ _ h)

/-- What `pop16` can answer: the word after two reads, or the state in which one of the two reads raised. -/
theorem pop16_cases :
    (∃ v u, pop16 s = .ok v u ∧ Pops s v u) ∨
      ∃ u a, pop16 s = .raised u ∧
        u = { s with
              sp := u.sp, counter := u.counter, tima := u.tima, ifr := u.ifr, reloadPending := u.reloadPending
              faulted := some { kind := .handlerMissing, op := s.curOp, addr := a }, cycles := u.cycles, env := u.env } := by
  have hs : s.sp + 1 + 1 = s.sp + 2 := by rw [BitVec.add_assoc]; rfl
  unfold pop16 pop8
  rcases memRead_cases s s.sp with ⟨-, lo, m, hm, hmf⟩ | ⟨-, hm⟩
  · have hmsp : m.sp = s.sp := by rw [hmf]
    rcases memRead_cases { m with sp := m.sp + 1 } (m.sp + 1) with ⟨-, hi, w, hw, hwf⟩ | ⟨-, hw⟩
    · refine .inl ⟨word hi lo, { w with sp := w.sp + 1 }, by simp only [hm, hw, Flow.map_ok, Flow.bind_ok], lo, m, hi, w, reads_of_memRead hm, ?_, rfl, ?_⟩
      · rw [hmsp] at hw
        exact reads_of_memRead hw
      · have : w.sp = s.sp + 1 := by rw [hwf, ← hmsp]
        rw [this, hs]
    · refine .inr ⟨_, m.sp + 1, by simp only [hm, Flow.map_ok, Flow.bind_ok, hw, Flow.map_raised]; rfl, ?_⟩
      rw [hmf]
      split <;> ext1 <;> simp [raiseFault]
  · refine .inr ⟨_, s.sp, by simp only [hm, Flow.map_raised, Flow.bind_raised]; rfl, ?_⟩
    split <;> ext1 <;> simp [raiseFault]

theorem pops_of_poppable (h : poppable s = true) : ∃ v u, pop16 s = .ok v u ∧ Pops s v u := by
  have hs : s.sp + 1 + 1 = s.sp + 2 := by rw [BitVec.add_assoc]; rfl
  simp only [poppable, Bool.and_eq_true] at h
  obtain ⟨lo, m, hm, hr⟩ := reads_of_readable s h.1
  have hmf := memRead_frame s hm
  have hmsp : m.sp = s.sp := by rw [hmf]
  have h2 : readable (s.sp + 1) { m with sp := s.sp + 1 } = true := by rw [hmf]; exact h.2
  obtain ⟨hi, w, hw, hr'⟩ := reads_of_readable _ h2
  have hwsp : w.sp = s.sp + 1 := by rw [memRead_frame _ hw]
  refine ⟨word hi lo, { w with sp := s.sp + 2 }, ?_, lo, m, hi, w, hr, hr', rfl, rfl⟩
  unfold pop16 pop8
  simp only [hm, Flow.map_ok, Flow.bind_ok, hmsp, hw, hwsp, hs]

/-- A pop changes `sp` by 2 and lets two M-cycles pass. -/
theorem Pops.frame {s u : State} {v : Word} (h : Pops s v u) : OnlyTime 2 { s with sp := s.sp + 2 } u := by
  obtain ⟨lo, m, hi, w, ⟨-, hm, -⟩, ⟨-, hw, -⟩, -, rfl⟩ := h
  unfold OnlyTime
  ext1 <;> first | rfl | skip
  · exact hw.a.trans hm.a
  · exact hw.f.trans hm.f
  · exact hw.b.trans hm.b
  · exact hw.c.trans hm.c
  · exact hw.d.trans hm.d
  · exact hw.e.trans hm.e
  · exact hw.h.trans hm.h
  · exact hw.l.trans hm.l
  · exact hw.pc.trans hm.pc
  · exact hw.ime.trans hm.ime
  · exact hw.ie.trans hm.ie
  · exact hw.eiDelay.trans hm.eiDelay
  · exact hw.halted.trans hm.halted
  · exact hw.haltBug.trans hm.haltBug
  · show w.counter = s.counter + 8
    rw [hw.counter]
    show m.counter + 4 = s.counter + 8
    rw [hm.counter, BitVec.add_assoc]
    rfl
  · exact hw.tma.trans hm.tma
  · exact hw.tac.trans hm.tac
  · exact hw.registry.trans hm.registry
  · exact hw.flat.trans hm.flat
  · exact hw.faulted.trans hm.faulted
  · exact hw.cycles.trans (by rw [show ({ m with sp := s.sp + 1 } : State).cycles = m.cycles from rfl, hm.cycles])
  · exact hw.cfg.trans hm.cfg
  · exact hw.curOp.trans hm.curOp
  · exact hw.opaddr.trans hm.opaddr

/-! ### The shared bodies -/

/-- A taken jump that the self-jump check does not stop. -/
theorem jumpTo_plain {target : Word} (h : s.cfg.selfJumpCheck = false ∨ target ≠ s.opaddr) :
    jumpTo target s = tick { s with pc := target } := by
  unfold jumpTo
  rw [if_neg (by rcases h with h | h <;> simp [h])]
  rfl

theorem jumpTo_self {target : Word} (h : s.cfg.selfJumpCheck = true) (ht : target = s.opaddr) :
    jumpTo target s = raiseFault .selfJump s.opaddr s := by
  unfold jumpTo
  rw [if_pos (by simp [h, ht])]

/-- A call answers the state after an internal M-cycle and the push, with `pc` at the target. -/
theorem callTo_eq (target : Word) : callTo target s = { push16 s.pc (tick s) with pc := target } := by
  simp [callTo]

/-- A taken return from a stack that can be read. -/
theorem doReturn_poppable (h : poppable s = true) :
    ∃ v u, Pops s v u ∧ doReturn s = .next (tick { u with pc := v }) := by
  obtain ⟨v, u, he, hp⟩ := pops_of_poppable s h
  exact ⟨v, u, hp, by simp [doReturn, he]⟩

/-- Taking an interrupt, in one expression. -/
theorem dispatch_eq (t : Irq) :
    dispatch t s =
      tick { clearInterrupt t (push16 s.pc (tick (tick { s with ime := false }))) with pc := t.vector } := by
  unfold dispatch
  simp only [internal_eq, tick_pc]

/-- Everything taking an interrupt can change (R315). -/
theorem dispatch_frame (t : Irq) :
    dispatch t s =
      { s with
        ime := false, sp := s.sp - 2, pc := t.vector, ie := (dispatch t s).ie, ifr := (dispatch t s).ifr
        counter := (dispatch t s).counter, tima := (dispatch t s).tima, tma := (dispatch t s).tma
        tac := (dispatch t s).tac, reloadPending := (dispatch t s).reloadPending, flat := (dispatch t s).flat
        cycles := s.cycles + 20, env := (dispatch t s).env } := by
  have h (v : Word) (u : State) := push16_frame u v
  ext1 <;> simp only [dispatch, internal_eq, tick_a, tick_f, tick_b, tick_c, tick_d, tick_e, tick_h, tick_l, tick_sp, tick_pc,
    tick_ime, tick_eiDelay, tick_halted, tick_haltBug, tick_registry, tick_faulted, tick_cycles, tick_cfg, tick_curOp,
    tick_opaddr, clearInterrupt] <;> (first | rfl | (rw [h]; simp))

theorem dispatch_wf (t : Irq) (h : s.flat.wf = true) : (dispatch t s).flat.wf = true := by
  have := push16_wf (tick (tick { s with ime := false })) (tick (tick { s with ime := false })).pc (by simpa using h)
  simpa [dispatch, clearInterrupt] using this

theorem dispatch_aligned (t : Irq) (h : s.counter.toNat % 4 = 0) : (dispatch t s).counter.toNat % 4 = 0 := by
  refine tick_aligned _ ?_
  exact push16_aligned (tick (tick { s with ime := false })) _ (tick_aligned _ (tick_aligned _ h))

end Sys2Proof.Machine
end

