-- ==== Sys2Proof/Laws/Results.lean ====
section
/-! SUPPORT. The results and flags that the instructions write, said once for each shape and each computation. -/

namespace Sys2Proof.Machine

variable (s : State)

/-! ### Shapes -/

theorem flagsAre_setFlags (z n h c : Bool) : FlagsAre (s.setFlags z n h c) z n h c := by
  refine ⟨?_, ?_, ?_, ?_⟩ <;> simp

theorem writesFlags_setFlags (z n h c : Bool) : WritesFlags s (s.setFlags z n h c) :=
  ⟨rfl, s.setFlags_lowNibble z n h c⟩

theorem writesFlags_setFlagsOf (o : AluOut) : WritesFlags s (s.setFlagsOf o) := writesFlags_setFlags s _ _ _ _

theorem flagsAre_setFlagsOf (o : AluOut) : FlagsAre (s.setFlagsOf o) o.z o.n o.h o.c := flagsAre_setFlags s _ _ _ _

theorem writesAccFlags_setAcc (o : AluOut) : WritesAccFlags s (s.setAcc o) :=
  ⟨rfl, (writesFlags_setFlags s o.z o.n o.h o.c).2⟩

theorem flagsAre_setAcc (o : AluOut) : FlagsAre (s.setAcc o) o.z o.n o.h o.c := flagsAre_setFlags s _ _ _ _

@[simp] theorem setAcc_a (o : AluOut) : (s.setAcc o).a = o.r := rfl

@[simp] theorem r8_setR8 (r r' : Reg8) (v : Byte) : (s.setR8 r v).r8 r' = if r' = r then v else s.r8 r' := by
  cases r <;> cases r' <;> rfl

theorem setR8_f (r : Reg8) (v : Byte) : (s.setR8 r v).f = s.f := by cases r <;> rfl

theorem writesRegFlags_setR8Alu (r : Reg8) (o : AluOut) : WritesRegFlags r s (s.setR8Alu r o) := by
  constructor
  · cases r <;> rfl
  · show (((s.setFlags o.z o.n o.h o.c).setR8 r o.r).f) &&& 0x0F = _
    rw [setR8_f]
    exact (writesFlags_setFlags s o.z o.n o.h o.c).2

theorem flagsAre_setR8Alu (r : Reg8) (o : AluOut) : FlagsAre (s.setR8Alu r o) o.z o.n o.h o.c := by
  have h := flagsAre_setFlags s o.z o.n o.h o.c
  unfold FlagsAre State.flagZ State.flagN State.flagH State.flagC at *
  rw [State.setR8Alu, setR8_f]
  exact h

@[simp] theorem r8_setR8Alu (r : Reg8) (o : AluOut) : (s.setR8Alu r o).r8 r = o.r := by simp [State.setR8Alu]

/-! ### Meanings that read the byte at HL -/

theorem accHl_readable {op : Byte → State → AluOut} (h : readable s.hl s = true) :
    ∃ v u, Reads s.hl s v u ∧ accHl op s = .next (u.setAcc (op v u)) := by
  obtain ⟨v, u, he, hr⟩ := reads_of_readable s h
  exact ⟨v, u, hr, by simp [accHl, he]⟩

theorem rmwHl_readable {op : Byte → State → AluOut} (h : readable s.hl s = true) :
    ∃ v u, Reads s.hl s v u ∧ rmwHl op s = .next ((memWrite s.hl (op v u).r u).setFlagsOf (op v u)) := by
  obtain ⟨v, u, he, hr⟩ := reads_of_readable s h
  have hl : u.hl = s.hl := by rw [memRead_frame s he]; rfl
  exact ⟨v, u, hr, by simp [rmwHl, he, hl]⟩

theorem updateHl_readable {f : Byte → Byte} (h : readable s.hl s = true) :
    ∃ v u, Reads s.hl s v u ∧ updateHl f s = .next (memWrite s.hl (f v) u) := by
  obtain ⟨v, u, he, hr⟩ := reads_of_readable s h
  have hl : u.hl = s.hl := by rw [memRead_frame s he]; rfl
  exact ⟨v, u, hr, by simp [updateHl, he, hl]⟩

theorem loadA_readable {a : Word} (h : readable a s = true) :
    ∃ v u, Reads a s v u ∧ loadA a s = .next { u with a := v } := by
  obtain ⟨v, u, he, hr⟩ := reads_of_readable s h
  exact ⟨v, u, hr, by simp [loadA, he]⟩

/-! ### Computations -/

theorem highPage_of_toNat {a : Word} {n : Byte} (h : a.toNat = 0xFF00 + n.toNat) : highPage n = a := by
  apply BitVec.eq_of_toNat_eq
  have := n.isLt
  simp only [highPage, zext16, BitVec.toNat_add, BitVec.toNat_setWidth, h]
  rw [Nat.mod_eq_of_lt (a := n.toNat) (by omega)]
  show (65280 + n.toNat) % 65536 = 65280 + n.toNat
  omega

theorem add8_r (x y : Byte) (cin : Bool) : (add8 x y cin).r.toNat = (x.toNat + y.toNat + cin.toNat) % 256 := by
  simp [add8]

theorem ofNat8_eq_zero (n : Nat) : (BitVec.ofNat 8 n == 0#8) = decide (n % 256 = 0) := by
  rw [Bool.eq_iff_iff, beq_iff_eq, decide_eq_true_iff]
  constructor
  · intro h; simpa using congrArg BitVec.toNat h
  · intro h; apply BitVec.eq_of_toNat_eq; simpa using h

theorem sub8_r (x y : Byte) (cin : Bool) : (sub8 x y cin).r.toNat = (x.toNat + 512 - y.toNat - cin.toNat) % 256 := by
  have hx := x.isLt
  have hy := y.isLt
  have hc : cin.toNat ≤ 1 := by cases cin <;> decide
  simp only [sub8, BitVec.toNat_ofInt]
  omega

end Sys2Proof.Machine
end

