-- ==== Sys2Proof/Laws/Exec.lean ====
section
/-! SUPPORT. What every instruction leaves alone, said once: construction, the fetch record, the interrupt and power-state bits, and
the three invariants of the data (canonical memory, aligned divider, F[3:0] = 0). -/

namespace Sys2Proof.Machine

/-- From `s` to `t` nothing that no ordinary instruction writes has changed, and the data invariants are kept. -/
structure Sound (s t : State) : Prop where
  cfg : t.cfg = s.cfg
  registry : t.registry = s.registry
  curOp : t.curOp = s.curOp
  opaddr : t.opaddr = s.opaddr
  ime : t.ime = s.ime
  eiDelay : t.eiDelay = s.eiDelay
  halted : t.halted = s.halted
  haltBug : t.haltBug = s.haltBug
  wf : s.flat.wf = true → t.flat.wf = true
  aligned : s.counter.toNat % 4 = 0 → t.counter.toNat % 4 = 0
  low : s.f &&& 0x0F = 0 → t.f &&& 0x0F = 0

theorem Sound.refl (s : State) : Sound s s := ⟨rfl, rfl, rfl, rfl, rfl, rfl, rfl, rfl, id, id, id⟩

theorem Sound.trans {s t u : State} (p : Sound s t) (q : Sound t u) : Sound s u :=
  ⟨q.cfg.trans p.cfg, q.registry.trans p.registry, q.curOp.trans p.curOp, q.opaddr.trans p.opaddr, q.ime.trans p.ime,
    q.eiDelay.trans p.eiDelay, q.halted.trans p.halted, q.haltBug.trans p.haltBug, fun h => q.wf (p.wf h),
    fun h => q.aligned (p.aligned h), fun h => q.low (p.low h)⟩

variable (s : State)

theorem sound_tick : Sound s (tick s) :=
  ⟨tick_cfg s, tick_registry s, tick_curOp s, tick_opaddr s, tick_ime s, tick_eiDelay s, tick_halted s, tick_haltBug s,
    fun h => by simpa using h, tick_aligned s, fun h => by simpa using h⟩

theorem sound_memWrite (a : Word) (v : Byte) : Sound s (memWrite a v s) :=
  ⟨memWrite_cfg s a v, memWrite_registry s a v, memWrite_curOp s a v, memWrite_opaddr s a v, memWrite_ime s a v,
    memWrite_eiDelay s a v, memWrite_halted s a v, memWrite_haltBug s a v, memWrite_wf s a v, memWrite_aligned s a v,
    fun h => by simpa using h⟩

theorem OnlyTime.sound {n : Nat} {s t : State} (q : OnlyTime n s t) : Sound s t :=
  ⟨q.cfg, q.registry, q.curOp, q.opaddr, q.ime, q.eiDelay, q.halted, q.haltBug, fun h => by rw [q.flat]; exact h,
    fun h => by
      rw [q.counter, BitVec.toNat_add, BitVec.toNat_ofNat]
      omega,
    fun h => by rw [q.f]; exact h⟩

/-- Writing A to L, `sp`, `pc` and `faulted` is sound; so is writing F where the low nibble is kept or cleared. -/
theorem sound_regs (a f b c d e h l : Byte) (sp pc : Word) (r : Option FaultRecord)
    (hf : s.f &&& 0x0F = 0 → f &&& 0x0F = 0) :
    Sound s
      { s with
        a := a, f := f, b := b, c := c, d := d, e := e, h := h, l := l, sp := sp, pc := pc, faulted := r } :=
  ⟨rfl, rfl, rfl, rfl, rfl, rfl, rfl, rfl, id, id, hf⟩

theorem sound_setR8 (r : Reg8) (v : Byte) : Sound s (s.setR8 r v) := by
  cases r <;> exact sound_regs s _ _ _ _ _ _ _ _ _ _ _ id

theorem sound_setR16 (rr : Reg16) (v : Word) : Sound s (s.setR16 rr v) := by
  cases rr <;> exact sound_regs s _ _ _ _ _ _ _ _ _ _ _ id

theorem sound_setFlags (z n h c : Bool) : Sound s (s.setFlags z n h c) :=
  sound_regs s _ _ _ _ _ _ _ _ _ _ _ fun hf => (s.setFlags_lowNibble z n h c).trans hf

theorem sound_setAf (v : Word) : Sound s (s.setAf v) :=
  sound_regs s _ _ _ _ _ _ _ _ _ _ _ fun _ => by
    show (loByte v &&& 0xF0) &&& 0x0F = 0
    rw [BitVec.and_assoc]
    simp

theorem sound_setStk (qq : RegStk) (v : Word) : Sound s (s.setStk qq v) := by
  cases qq
  case af => exact sound_setAf s v
  all_goals exact sound_regs s _ _ _ _ _ _ _ _ _ _ _ id

theorem sound_setAcc (o : AluOut) : Sound s (s.setAcc o) :=
  (sound_setFlags s o.z o.n o.h o.c).trans (sound_regs _ _ _ _ _ _ _ _ _ _ _ _ id)

theorem sound_setR8Alu (r : Reg8) (o : AluOut) : Sound s (s.setR8Alu r o) :=
  (sound_setFlags s o.z o.n o.h o.c).trans (sound_setR8 _ r o.r)

theorem sound_push16 (v : Word) : Sound s (push16 v s) :=
  (((sound_regs s s.a s.f s.b s.c s.d s.e s.h s.l (s.sp - 1) s.pc s.faulted id).trans (sound_memWrite _ _ _)).trans
    (sound_regs _ _ _ _ _ _ _ _ _ _ _ _ id)).trans (sound_memWrite _ _ _)

theorem sound_raiseFault (k : FaultKind) (a : Word) : Sound s (raiseFault k a s) := sound_regs s _ _ _ _ _ _ _ _ _ _ _ id

theorem sound_jumpTo (target : Word) : Sound s (jumpTo target s) := by
  unfold jumpTo
  split
  · exact sound_raiseFault s _ _
  · exact (sound_regs s s.a s.f s.b s.c s.d s.e s.h s.l s.sp target s.faulted id).trans (sound_tick _)

theorem sound_callTo (target : Word) : Sound s (callTo target s) := by
  rw [callTo_eq]
  exact ((sound_tick s).trans (sound_push16 _ _)).trans (sound_regs _ _ _ _ _ _ _ _ _ _ _ _ id)

/-- Every answer of a flow is in `P`, be it a value with its state or a raise. -/
def Flow.Within {α : Type} (P : State → Prop) (x : Flow α) : Prop :=
  match x with
  | .ok _ s => P s
  | .raised s => P s

theorem within_memRead (a : Word) : (memRead a s).Within (Sound s) := by
  rcases memRead_cases s a with ⟨-, v, t, he, hf⟩ | ⟨-, he⟩
  · rw [he]
    exact OnlyTime.sound (n := 1) hf
  · rw [he]
    show Sound s (match s.cfg.accessPhase with
      | .accessThenTick => raiseFault .handlerMissing a s
      | .tickThenAccess => raiseFault .handlerMissing a (tick s))
    split
    · exact sound_raiseFault s _ _
    · exact (sound_tick s).trans (sound_raiseFault _ _ _)

theorem within_pop16 : (pop16 s).Within (Sound s) := by
  unfold pop16 pop8
  have h1 := within_memRead s s.sp
  cases hm : memRead s.sp s with
  | raised u => rw [hm] at h1; exact h1
  | ok lo m =>
    rw [hm] at h1
    have h2 := within_memRead { m with sp := m.sp + 1 } (m.sp + 1)
    have h12 : Sound s { m with sp := m.sp + 1 } :=
      Sound.trans h1 (sound_regs m m.a m.f m.b m.c m.d m.e m.h m.l (m.sp + 1) m.pc m.faulted id)
    simp only [Flow.map_ok, Flow.bind_ok]
    cases hw : memRead (m.sp + 1) { m with sp := m.sp + 1 } with
    | raised u => rw [hw] at h2; exact h12.trans h2
    | ok hi w =>
      rw [hw] at h2
      exact (h12.trans h2).trans (sound_regs w w.a w.f w.b w.c w.d w.e w.h w.l (w.sp + 1) w.pc w.faulted id)

/-- A meaning that ends in `finish` is sound if what it does after its reads is. -/
theorem sound_finish {α : Type} {x : Flow α} {k : α → State → State} {t : State} (hx : x.Within (Sound s))
    (hk : ∀ v u, Sound u (k v u)) (h : x.finish k = .next t) : Sound s t := by
  cases x with
  | ok v u => cases h; exact Sound.trans hx (hk v u)
  | raised u => cases h; exact hx

/-- The state a next answer holds. -/
theorem next_inj {s t : State} (h : (Host.Outcome.next s : Result) = .next t) : t = s := by cases h; rfl

theorem sound_loadA {a : Word} {t : State} (h : loadA a s = .next t) : Sound s t :=
  sound_finish s (within_memRead s a) (fun _ u => sound_regs u _ _ _ _ _ _ _ _ _ _ _ id) h

theorem sound_accHl {op : Byte → State → AluOut} {t : State} (h : accHl op s = .next t) : Sound s t :=
  sound_finish s (within_memRead s s.hl) (fun _ u => sound_setAcc u _) h

theorem sound_rmwHl {op : Byte → State → AluOut} {t : State} (h : rmwHl op s = .next t) : Sound s t :=
  sound_finish s (within_memRead s s.hl) (fun _ u => (sound_memWrite u _ _).trans (sound_setFlags _ _ _ _ _)) h

theorem sound_updateHl {f : Byte → Byte} {t : State} (h : updateHl f s = .next t) : Sound s t :=
  sound_finish s (within_memRead s s.hl) (fun _ u => sound_memWrite u _ _) h

theorem sound_doReturn {t : State} (h : doReturn s = .next t) : Sound s t :=
  sound_finish s (within_pop16 s)
    (fun _ u => (sound_regs u u.a u.f u.b u.c u.d u.e u.h u.l u.sp _ u.faulted id).trans (sound_tick _)) h

/-- The four instructions that write the interrupt and power-state bits (R29, R32 to R34). -/
def writesControl : Instr → Bool
  | .di | .ei | .halt | .reti => true
  | _ => false

/-- Every other instruction is sound. -/
theorem exec_sound {i : Instr} {t : State} (hi : writesControl i = false) (h : exec i s = .next t) : Sound s t := by
  have plain (x : State) (hx : Sound s x) (hn : (Host.Outcome.next x : Result) = .next t) : Sound s t := by
    cases hn
    exact hx
  have regs (u : State) (a f b c d e h l : Byte) (sp pc : Word) (r : Option FaultRecord)
      (hf : u.f &&& 0x0F = 0 → f &&& 0x0F = 0) := sound_regs u a f b c d e h l sp pc r hf
  cases i
  case di => cases hi
  case ei => cases hi
  case halt => cases hi
  case reti => cases hi
  case nop => exact plain _ (Sound.refl s) h
  case ldRR r r' => exact plain _ (sound_setR8 s _ _) h
  case ldRN r n => exact plain _ (sound_setR8 s _ _) h
  case ldRHl r => exact sound_finish s (within_memRead s s.hl) (fun _ u => sound_setR8 u _ _) h
  case ldABc => exact sound_loadA s h
  case ldADe => exact sound_loadA s h
  case ldANn nn => exact sound_loadA s h
  case ldhAC => exact sound_loadA s h
  case ldhAN n => exact sound_loadA s h
  case ldAHli => exact sound_finish s (within_memRead s s.hl) (fun _ u => regs u _ _ _ _ _ _ _ _ _ _ _ id) h
  case ldAHld => exact sound_finish s (within_memRead s s.hl) (fun _ u => regs u _ _ _ _ _ _ _ _ _ _ _ id) h
  case ldHliA => exact plain _ ((sound_memWrite s _ _).trans (regs _ _ _ _ _ _ _ _ _ _ _ _ id)) h
  case ldHldA => exact plain _ ((sound_memWrite s _ _).trans (regs _ _ _ _ _ _ _ _ _ _ _ _ id)) h
  case ldRrNn rr nn => exact plain _ (sound_setR16 s _ _) h
  case ldNnSp nn => exact plain _ ((sound_memWrite s _ _).trans (sound_memWrite _ _ _)) h
  case ldSpHl => exact plain _ ((regs s _ _ _ _ _ _ _ _ s.hl _ _ id).trans (sound_tick _)) h
  case ldHlSpE e =>
    exact plain _ (((sound_setFlags s _ _ _ _).trans (regs _ _ _ _ _ _ _ _ _ _ _ _ id)).trans (sound_tick _)) h
  case pushQq qq => exact plain _ ((sound_tick s).trans (sound_push16 _ _)) h
  case pushAf => exact plain _ ((sound_tick s).trans (sound_push16 _ _)) h
  case popQq qq => exact sound_finish s (within_pop16 s) (fun _ u => sound_setStk u _ _) h
  case popAf => exact sound_finish s (within_pop16 s) (fun _ u => sound_setAf u _) h
  case cpR r => exact plain _ (sound_setFlags s _ _ _ _) h
  case cpN n => exact plain _ (sound_setFlags s _ _ _ _) h
  case cpHl => exact sound_finish s (within_memRead s s.hl) (fun _ u => sound_setFlags u _ _ _ _) h
  case incR r => exact plain _ (sound_setR8Alu s _ _) h
  case decR r => exact plain _ (sound_setR8Alu s _ _) h
  case cpl => exact plain _ ((sound_setFlags s _ _ _ _).trans (regs _ _ _ _ _ _ _ _ _ _ _ _ id)) h
  case scf => exact plain _ (sound_setFlags s _ _ _ _) h
  case ccf => exact plain _ (sound_setFlags s _ _ _ _) h
  case addHlRr rr =>
    exact plain _ (((sound_setFlags s _ _ _ _).trans (regs _ _ _ _ _ _ _ _ _ _ _ _ id)).trans (sound_tick _)) h
  case incRr rr => exact plain _ ((sound_setR16 s _ _).trans (sound_tick _)) h
  case decRr rr => exact plain _ ((sound_setR16 s _ _).trans (sound_tick _)) h
  case addSpE e =>
    exact plain _
      ((((sound_setFlags s _ _ _ _).trans (sound_tick _)).trans (sound_tick _)).trans
        (regs _ _ _ _ _ _ _ _ _ _ _ _ id)) h
  case bitBR b r => exact plain _ (sound_setFlags s _ _ _ _) h
  case bitBHl b => exact sound_finish s (within_memRead s s.hl) (fun _ u => sound_setFlags u _ _ _ _) h
  case resBR b r => exact plain _ (sound_setR8 s _ _) h
  case setBR b r => exact plain _ (sound_setR8 s _ _) h
  case resBHl b => exact sound_updateHl s h
  case setBHl b => exact sound_updateHl s h
  case jpHl => exact plain _ (regs s _ _ _ _ _ _ _ _ _ s.hl _ id) h
  case jpNn nn => exact plain _ (sound_jumpTo s _) h
  case jrE e => exact plain _ (sound_jumpTo s _) h
  case callNn nn => exact plain _ (sound_callTo s _) h
  case rst nn => exact plain _ (sound_callTo s _) h
  case ret => exact sound_doReturn s h
  case jpCcNn cc nn =>
    change (if s.cond cc then _ else _) = _ at h
    split at h
    · exact plain _ (sound_jumpTo s _) h
    · exact plain _ (Sound.refl s) h
  case jrCcE cc e =>
    change (if s.cond cc then _ else _) = _ at h
    split at h
    · exact plain _ (sound_jumpTo s _) h
    · exact plain _ (Sound.refl s) h
  case callCcNn cc nn =>
    change (if s.cond cc then _ else _) = _ at h
    split at h
    · exact plain _ (sound_callTo s _) h
    · exact plain _ (Sound.refl s) h
  case retCc cc =>
    change (if (tick s).cond cc then _ else _) = _ at h
    split at h
    · exact (sound_tick s).trans (sound_doReturn _ h)
    · exact plain _ (sound_tick s) h
  all_goals first
    | exact plain _ (sound_memWrite s _ _) h
    | exact sound_accHl s h
    | exact sound_rmwHl s h
    | exact plain _ (sound_setAcc s _) h
    | exact plain _ (sound_setR8Alu s _ _) h
    | exact plain _ ((sound_setFlags s _ _ _ _).trans (regs _ _ _ _ _ _ _ _ _ _ _ _ id)) h
    | exact plain _ (regs s _ _ _ _ _ _ _ _ _ _ _ id) h

end Sys2Proof.Machine
end

