-- ==== Sys2Proof/Laws/Step.lean ====
section
/-! SUPPORT. What fetching an instruction and one step can do, said once. -/

namespace Sys2Proof.Machine

variable (s : State)

/-! ### Fetching -/

theorem within_fetch8 : (fetch8 s).Within (Sound s) := by
  have h := within_memRead s s.pc
  unfold fetch8
  cases hm : memRead s.pc s with
  | ok v u => rw [hm] at h; exact Sound.trans h (sound_regs u u.a u.f u.b u.c u.d u.e u.h u.l u.sp _ u.faulted id)
  | raised u => rw [hm] at h; exact h

theorem within_bind {α β : Type} {x : Flow α} {k : α → State → Flow β} (hx : x.Within (Sound s))
    (hk : ∀ v u, Sound s u → (k v u).Within (Sound s)) : (x.bind k).Within (Sound s) := by
  cases x with
  | ok v u => exact hk v u hx
  | raised u => exact hx

theorem within_map {α β : Type} {x : Flow α} {k : α → State → β × State} (hx : x.Within (Sound s))
    (hk : ∀ v u, Sound s u → Sound s (k v u).2) : (x.map k).Within (Sound s) := by
  cases x with
  | ok v u => exact hk v u hx
  | raised u => exact hx

theorem within_mono {α : Type} {P Q : State → Prop} {x : Flow α} (hx : x.Within P) (h : ∀ u, P u → Q u) : x.Within Q := by
  cases x with
  | ok v u => exact h u hx
  | raised u => exact h u hx

theorem within_fetch16 : (fetch16 s).Within (Sound s) :=
  within_bind s (within_fetch8 s) fun _ u hu =>
    within_map s (within_mono (within_fetch8 u) fun _ hv => hu.trans hv) fun _ _ hv => hv

/-- What the opcode fetch can do: read a byte, having noted where it is fetched from, or raise. -/
theorem fetchOpcode_cases :
    (∃ op m, fetchOpcode s =
        .ok op { m with curOp := some op, pc := if s.haltBug then s.pc else s.pc + 1, haltBug := false } ∧
      Reads s.pc { s with curOp := none, opaddr := s.pc } op m) ∨
    (∃ m, fetchOpcode s = .raised m ∧ Sound { s with curOp := none, opaddr := s.pc } m ∧ readable s.pc s = false) := by
  unfold fetchOpcode
  rcases memRead_cases { s with curOp := none, opaddr := s.pc } s.pc with ⟨-, op, m, hm, hf⟩ | ⟨hr, hm⟩
  · have hpc : m.pc = s.pc := by rw [hf]
    have hb : m.haltBug = s.haltBug := by rw [hf]
    exact .inl ⟨op, m, by simp only [hm, Flow.map_ok, hpc, hb], reads_of_memRead hm⟩
  · have h := within_memRead { s with curOp := none, opaddr := s.pc } s.pc
    rw [hm] at h
    exact .inr ⟨_, by simp only [hm, Flow.map_raised], h, hr⟩

/-- What fetching an instruction can do: after the opcode fetch only sound reads of its operand bytes. -/
theorem fetchInstr_cases :
    (∃ op m, Reads s.pc { s with curOp := none, opaddr := s.pc } op m ∧
      (fetchInstr s).Within
        (Sound { m with curOp := some op, pc := if s.haltBug then s.pc else s.pc + 1, haltBug := false })) ∨
    (∃ m, fetchInstr s = .raised m ∧ Sound { s with curOp := none, opaddr := s.pc } m ∧ readable s.pc s = false) := by
  unfold fetchInstr
  rcases fetchOpcode_cases s with ⟨op, m, he, hr⟩ | ⟨m, he, hs, hr⟩
  · refine .inl ⟨op, m, hr, ?_⟩
    rw [he, Flow.bind_ok]
    cases decodeBase op with
    | op i => exact Sound.refl _
    | n k => exact within_map _ (within_fetch8 _) fun _ _ hv => hv
    | nn k => exact within_map _ (within_fetch16 _) fun _ _ hv => hv
    | cb => exact within_map _ (within_fetch8 _) fun _ _ hv => hv
  · exact .inr ⟨m, by rw [he, Flow.bind_raised], hs, hr⟩

/-! ### Fetching from plain memory -/

theorem fetch8_plain (h : plainAt s s.pc = true) :
    fetch8 s = .ok (s.flat.read s.pc) { tick s with pc := s.pc + 1 } := by
  unfold fetch8
  rw [memRead_plain s s.pc h, Flow.map_ok, tick_pc]

/-- The CPU engine's part with the program counter replaced commutes with a tick. -/
theorem tick_setPc (a : Word) : tick { s with pc := a } = { tick s with pc := a } := by
  have h := tick_withCpu s { s.cpu with pc := a }
  have h1 : s.withCpu { s.cpu with pc := a } = { s with pc := a } := rfl
  rw [h1] at h
  rw [h]
  ext1 <;> simp [State.withCpu, State.cpu]

/-- An opcode fetch from plain memory. -/
theorem fetchOpcode_plain (h : plainAt s s.pc = true) :
    fetchOpcode s =
      .ok (s.flat.read s.pc)
        { tick s with
          curOp := some (s.flat.read s.pc), opaddr := s.pc, pc := if s.haltBug then s.pc else s.pc + 1
          haltBug := false } := by
  unfold fetchOpcode
  rw [memRead_plain { s with curOp := none, opaddr := s.pc } s.pc h, Flow.map_ok, tick_haltBug, tick_pc]
  have h1 : tick { s with curOp := none, opaddr := s.pc } = { tick s with curOp := none, opaddr := s.pc } := by
    have h := tick_withCpu s { s.cpu with curOp := none, opaddr := s.pc }
    have h1 : s.withCpu { s.cpu with curOp := none, opaddr := s.pc } = { s with curOp := none, opaddr := s.pc } := rfl
    rw [h1] at h
    rw [h]
    ext1 <;> simp [State.withCpu, State.cpu]
  rw [h1]

/-! ### One step -/

/-- A step is a dispatch, a halted tick, or a fetch and then an instruction. -/
theorem step_cases {t : State} (h : step s = .next t) :
    s.faulted = none ∧
      (stepEntry s = .stepOver t ∨
        ∃ u, stepEntry s = .fetch u ∧
          (fetchInstr u = .raised t ∨ ∃ i w, fetchInstr u = .ok i w ∧ exec i w = .next t)) := by
  unfold step at h
  split at h
  · cases h
  · rename_i hf
    refine ⟨hf, ?_⟩
    split at h
    · cases h
      rename_i he
      exact .inl he
    · rename_i u he
      refine .inr ⟨u, he, ?_⟩
      split at h
      · rename_i i w hi
        exact .inr ⟨i, w, hi, h⟩
      · rename_i w hi
        cases h
        exact .inl hi

/-- What the step decides before it fetches (R300). -/
theorem stepEntry_cases :
    (∃ t, checkInterrupts s = some t ∧ s.ime = true ∧ stepEntry s = .stepOver (dispatch t { s with halted := false })) ∨
    (checkInterrupts s = none ∧ s.halted = true ∧ stepEntry s = .stepOver (tick s)) ∨
    (stepEntry s = .fetch { s with halted := false, ime := s.ime || s.eiDelay, eiDelay := false }) := by
  unfold stepEntry deferredEnable
  cases hc : checkInterrupts s with
  | some t =>
    cases hi : s.ime with
    | true => exact .inl ⟨t, rfl, rfl, by simp⟩
    | false =>
      refine .inr (.inr ?_)
      cases he : s.eiDelay <;> simp
  | none =>
    cases hh : s.halted with
    | true => exact .inr (.inl ⟨rfl, rfl, by simp⟩)
    | false =>
      refine .inr (.inr ?_)
      cases he : s.eiDelay <;> simp
      cases s
      simp_all

end Sys2Proof.Machine
end

