-- ==== Sys2Proof/Laws/Cost.lean ====
section
/-! SUPPORT. What every instruction costs and when it can raise: after its fetches an instruction takes the M-cycles of R116 and
leaves `faulted` alone, or it raised, for one of the three reasons of R320. -/

namespace Sys2Proof.Machine

/-- `n` M-cycles have been charged and no fault raised. -/
structure Costs (n : Nat) (s t : State) : Prop where
  cycles : t.cycles = s.cycles + 4 * n
  faulted : t.faulted = s.faulted

theorem Costs.trans {m n : Nat} {s t u : State} (p : Costs m s t) (q : Costs n t u) : Costs (m + n) s u :=
  ⟨by rw [q.cycles, p.cycles]; omega, q.faulted.trans p.faulted⟩

/-- A read raised `HandlerMissing`: some address of the construction cannot be read. -/
def ReadRaised (s t : State) : Prop := (∃ a, readable a s = false) ∧ t.faulted.isSome = true

/-- The flow's value comes after `n` M-cycles, or a read raised. -/
def Flow.CostsOrRaises {α : Type} (n : Nat) (s : State) (x : Flow α) : Prop :=
  match x with
  | .ok _ u => Costs n s u
  | .raised u => ReadRaised s u

variable (s : State)

theorem memRead_costs (a : Word) : (memRead a s).CostsOrRaises 1 s := by
  rcases memRead_cases s a with ⟨-, v, t, he, hf⟩ | ⟨hr, he⟩
  · rw [he]
    have q : OnlyTime 1 s t := hf
    exact ⟨q.cycles, q.faulted⟩
  · rw [he]
    refine ⟨⟨a, hr⟩, ?_⟩
    split <;> simp [raiseFault]

theorem pop16_costs : (pop16 s).CostsOrRaises 2 s := by
  rcases pop16_cases s with ⟨v, u, he, hp⟩ | ⟨u, a, he, hp⟩
  · rw [he]
    exact ⟨hp.frame.cycles, hp.frame.faulted⟩
  · rw [he]
    refine ⟨?_, by rw [hp]; rfl⟩
    cases h1 : readable s.sp s with
    | false => exact ⟨_, h1⟩
    | true =>
      cases h2 : readable (s.sp + 1) s with
      | false => exact ⟨_, h2⟩
      | true =>
        obtain ⟨v, w, hw, -⟩ := pops_of_poppable s (by rw [poppable, h1, h2]; rfl)
        rw [hw] at he
        cases he

theorem finish_costs {α : Type} {m n : Nat} {s t : State} {x : Flow α} {k : α → State → State} (h : x.finish k = .next t)
    (hx : x.CostsOrRaises n s) (hk : ∀ v u, Costs m u (k v u)) : Costs (n + m) s t ∨ ReadRaised s t := by
  cases x with
  | ok v u => cases h; exact .inl (Costs.trans hx (hk v u))
  | raised u => cases h; exact .inr hx

theorem costs_refl : Costs 0 s s := ⟨rfl, rfl⟩

theorem costs_tick : Costs 1 s (tick s) := ⟨by simp, by simp⟩

theorem Costs.tick {n : Nat} {s t : State} (h : Costs n s t) : Costs (n + 1) s (Machine.tick t) := h.trans (costs_tick t)

theorem costs_memWrite (a : Word) (v : Byte) : Costs 1 s (memWrite a v s) := ⟨by simp, by simp⟩

theorem costs_setR8 (r : Reg8) (v : Byte) : Costs 0 s (s.setR8 r v) := by cases r <;> exact ⟨rfl, rfl⟩

theorem costs_setR16 (rr : Reg16) (v : Word) : Costs 0 s (s.setR16 rr v) := by cases rr <;> exact ⟨rfl, rfl⟩

theorem costs_setStk (qq : RegStk) (v : Word) : Costs 0 s (s.setStk qq v) := by cases qq <;> exact ⟨rfl, rfl⟩

theorem costs_setR8Alu (r : Reg8) (o : AluOut) : Costs 0 s (s.setR8Alu r o) := by cases r <;> exact ⟨rfl, rfl⟩

theorem costs_push16 (v : Word) : Costs 2 s (push16 v s) := by
  rw [push16_frame]
  exact ⟨rfl, rfl⟩

theorem costs_setPc (a : Word) : Costs 0 s { s with pc := a } := ⟨rfl, rfl⟩

theorem costs_callTo (target : Word) : Costs 3 s (callTo target s) := by
  rw [callTo_eq]
  exact ((costs_tick s).trans (costs_push16 _ _)).trans (costs_setPc _ target)

theorem costs_jumpTo (target : Word) :
    Costs 1 s (jumpTo target s) ∨ (s.cfg.selfJumpCheck = true ∧ (jumpTo target s).faulted.isSome = true) := by
  unfold jumpTo
  split
  · rename_i h
    simp only [Bool.and_eq_true] at h
    exact .inr ⟨h.1, rfl⟩
  · exact .inl ((costs_setPc s target).trans (costs_tick _))

/-- What an instruction's own M-cycles (those after its fetches) come to. -/
def ExecCosts (i : Instr) (s t : State) : Prop :=
  Costs (mcycles i (taken i s) - (encode i).length) s t ∨ ReadRaised s t ∨
  (s.cfg.selfJumpCheck = true ∧ t.faulted.isSome = true) ∨
  ∃ op, (op, i) ∈ illegalTable ∧
    t = { s with faulted := some { kind := .illegalOpcode, op := some op, addr := s.opaddr } }

theorem exec_costs {i : Instr} {t : State} (h : exec i s = .next t) : ExecCosts i s t := by
  have ill (op : Byte) (j : Instr) (hm : (op, j) ∈ illegalTable) (hr : raiseIllegal op s = .next t) : ExecCosts j s t :=
    .inr (.inr (.inr ⟨op, hm, next_inj hr⟩))
  have flow {n : Nat} {j : Instr} (hn : n = mcycles j (taken j s) - (encode j).length)
      (q : Costs n s t ∨ ReadRaised s t) : ExecCosts j s t := by
    subst hn
    rcases q with q | q
    · exact .inl q
    · exact .inr (.inl q)
  have plain {n : Nat} {j : Instr} (x : State) (hn : n = mcycles j (taken j s) - (encode j).length) (hx : t = x)
      (q : Costs n s x) : ExecCosts j s t := by
    subst hn hx
    exact .inl q
  have jump {j : Instr} {v : Word} (hn : 1 = mcycles j (taken j s) - (encode j).length) (hx : t = jumpTo v s) :
      ExecCosts j s t := by
    subst hx
    rcases costs_jumpTo s v with q | q
    · rw [hn] at q
      exact .inl q
    · exact .inr (.inr (.inl q))
  cases i
  case stop => exact ill 0x10 _ (by decide) h
  case illegalD3 => exact ill 0xD3 _ (by decide) h
  case illegalDB => exact ill 0xDB _ (by decide) h
  case illegalDD => exact ill 0xDD _ (by decide) h
  case illegalE3 => exact ill 0xE3 _ (by decide) h
  case illegalE4 => exact ill 0xE4 _ (by decide) h
  case illegalEB => exact ill 0xEB _ (by decide) h
  case illegalEC => exact ill 0xEC _ (by decide) h
  case illegalED => exact ill 0xED _ (by decide) h
  case illegalF4 => exact ill 0xF4 _ (by decide) h
  case illegalFC => exact ill 0xFC _ (by decide) h
  case illegalFD => exact ill 0xFD _ (by decide) h
  case popQq => exact flow rfl (finish_costs h (pop16_costs s) fun _ u => costs_setStk u _ _)
  case popAf => exact flow rfl (finish_costs h (pop16_costs s) (m := 0) fun _ _ => ⟨rfl, rfl⟩)
  case ret => exact flow rfl (finish_costs h (pop16_costs s) fun v u => (costs_setPc u v).trans (costs_tick _))
  case reti =>
    exact flow rfl
      (finish_costs h (pop16_costs s) (m := 1) fun v u =>
        ((costs_setPc u v).trans (costs_tick _)).trans (n := 0) (t := Machine.tick { u with pc := v }) ⟨rfl, rfl⟩)
  case retCc cc =>
    change (if (Machine.tick s).cond cc then _ else _) = _ at h
    rw [tick_cond] at h
    cases hc : s.cond cc with
    | true =>
      rw [hc] at h
      simp only [if_true] at h
      rcases finish_costs h (pop16_costs (Machine.tick s)) fun v u => (costs_setPc u v).trans (costs_tick _) with q | q
      · exact .inl (by simpa [mcycles, taken, hc, encode] using (costs_tick s).trans q)
      · exact .inr (.inl ⟨by simpa using q.1, q.2⟩)
    | false =>
      rw [hc] at h
      have ht : t = Machine.tick s := next_inj h
      rw [ht]
      exact .inl (by simpa [mcycles, taken, hc, encode] using costs_tick s)
  case callCcNn cc nn =>
    change (if s.cond cc then _ else _) = _ at h
    cases hc : s.cond cc with
    | true => rw [hc] at h; exact plain _ (by simp [mcycles, taken, hc, encode, withNn]) (next_inj h) (costs_callTo s nn)
    | false => rw [hc] at h; exact plain _ (by simp [mcycles, taken, hc, encode, withNn]) (next_inj h) (costs_refl s)
  case jpCcNn cc nn =>
    change (if s.cond cc then _ else _) = _ at h
    cases hc : s.cond cc with
    | true => rw [hc] at h; exact jump (by simp [mcycles, taken, hc, encode, withNn]) (next_inj h)
    | false => rw [hc] at h; exact plain _ (by simp [mcycles, taken, hc, encode, withNn]) (next_inj h) (costs_refl s)
  case jrCcE cc e =>
    change (if s.cond cc then _ else _) = _ at h
    cases hc : s.cond cc with
    | true => rw [hc] at h; exact jump (by simp [mcycles, taken, hc, encode]) (next_inj h)
    | false => rw [hc] at h; exact plain _ (by simp [mcycles, taken, hc, encode]) (next_inj h) (costs_refl s)
  case jpNn => exact jump rfl (next_inj h)
  case jrE => exact jump rfl (next_inj h)
  case callNn => exact plain _ rfl (next_inj h) (costs_callTo s _)
  case rst => exact plain _ rfl (next_inj h) (costs_callTo s _)
  case pushQq => exact plain _ rfl (next_inj h) ((costs_tick s).trans (costs_push16 _ _))
  case pushAf => exact plain _ rfl (next_inj h) ((costs_tick s).trans (costs_push16 _ _))
  case ldNnSp => exact plain _ rfl (next_inj h) ((costs_memWrite s _ _).trans (costs_memWrite _ _ _))
  case halt =>
    change (if _ then _ else _) = _ at h
    split at h <;> exact plain (n := 0) _ rfl (next_inj h) ⟨rfl, rfl⟩
  case ldRHl => exact flow rfl (finish_costs h (memRead_costs s _) fun _ u => costs_setR8 u _ _)
  case cpHl => exact flow rfl (finish_costs h (memRead_costs s _) (m := 0) fun _ _ => ⟨rfl, rfl⟩)
  case bitBHl => exact flow rfl (finish_costs h (memRead_costs s _) (m := 0) fun _ _ => ⟨rfl, rfl⟩)
  case resBHl => exact flow rfl (finish_costs h (memRead_costs s _) fun _ u => costs_memWrite u _ _)
  case setBHl => exact flow rfl (finish_costs h (memRead_costs s _) fun _ u => costs_memWrite u _ _)
  case incRr => exact plain _ rfl (next_inj h) (costs_setR16 s _ _).tick
  case decRr => exact plain _ rfl (next_inj h) (costs_setR16 s _ _).tick
  case addHlRr => exact plain (n := 1) _ rfl (next_inj h) (Costs.tick (n := 0) ⟨rfl, rfl⟩)
  case ldSpHl => exact plain (n := 1) _ rfl (next_inj h) (Costs.tick (n := 0) ⟨rfl, rfl⟩)
  case ldHlSpE => exact plain (n := 1) _ rfl (next_inj h) (Costs.tick (n := 0) ⟨rfl, rfl⟩)
  case addSpE e =>
    exact plain (n := 2) _ rfl (next_inj h)
      ((Costs.tick (Costs.tick (n := 0) (s := s)
        (t := s.setFlags false false (addSp s.sp e).h (addSp s.sp e).c) ⟨rfl, rfl⟩)).trans (n := 0) ⟨rfl, rfl⟩)
  case ldHliA => exact plain (n := 1) _ rfl (next_inj h) ((costs_memWrite s s.hl s.a).trans (n := 0) ⟨rfl, rfl⟩)
  case ldHldA => exact plain (n := 1) _ rfl (next_inj h) ((costs_memWrite s s.hl s.a).trans (n := 0) ⟨rfl, rfl⟩)
  case ldRrNn => exact plain _ rfl (next_inj h) (costs_setR16 s _ _)
  all_goals first
    | (have hx := next_inj h; exact plain (n := 0) _ rfl hx ⟨rfl, rfl⟩)
    | (have hx := next_inj h; exact plain (n := 0) _ rfl hx (costs_setR8 s _ _))
    | (have hx := next_inj h; exact plain (n := 0) _ rfl hx (costs_setR8Alu s _ _))
    | (have hx := next_inj h; exact plain (n := 1) _ rfl hx (costs_memWrite s _ _))
    | exact flow (n := 1) rfl (finish_costs h (memRead_costs s _) (m := 0) fun _ _ => ⟨rfl, rfl⟩)
    | exact flow (n := 2) rfl
        (finish_costs h (memRead_costs s _) (m := 1) fun _ u => (costs_memWrite u _ _).trans (n := 0) ⟨rfl, rfl⟩)

end Sys2Proof.Machine
end

