-- ==== Sys2Proof/Laws/PerInstr.lean ====
section
/-! SUPPORT. The per-instruction family `Length` (spec/30_encoding.md R100): "An instruction is 1, 2 or 3 bytes long", said of the
encoder constructor by constructor. -/

namespace Sys2Proof.Laws.Length

/-- The instruction's encoding is 1, 2 or 3 bytes long (R100). -/
def Statement (i : Instr) : Prop := 1 ≤ (encode i).length ∧ (encode i).length ≤ 3

theorem nop : Statement .nop := ⟨by decide, by decide⟩
theorem ldNnSp (nn : Word) : Statement (.ldNnSp nn) := ⟨Nat.le_of_ble_eq_true rfl, Nat.le_of_ble_eq_true rfl⟩
theorem stop : Statement .stop := ⟨by decide, by decide⟩
theorem jrE (e : Byte) : Statement (.jrE e) := ⟨Nat.le_of_ble_eq_true rfl, Nat.le_of_ble_eq_true rfl⟩
theorem jrCcE (cc : Cond) (e : Byte) : Statement (.jrCcE cc e) := ⟨Nat.le_of_ble_eq_true rfl, Nat.le_of_ble_eq_true rfl⟩
theorem ldRrNn (rr : Reg16) (nn : Word) : Statement (.ldRrNn rr nn) := ⟨Nat.le_of_ble_eq_true rfl, Nat.le_of_ble_eq_true rfl⟩
theorem addHlRr (rr : Reg16) : Statement (.addHlRr rr) := ⟨Nat.le_of_ble_eq_true rfl, Nat.le_of_ble_eq_true rfl⟩
theorem ldBcA : Statement .ldBcA := ⟨by decide, by decide⟩
theorem ldDeA : Statement .ldDeA := ⟨by decide, by decide⟩
theorem ldHliA : Statement .ldHliA := ⟨by decide, by decide⟩
theorem ldHldA : Statement .ldHldA := ⟨by decide, by decide⟩
theorem ldABc : Statement .ldABc := ⟨by decide, by decide⟩
theorem ldADe : Statement .ldADe := ⟨by decide, by decide⟩
theorem ldAHli : Statement .ldAHli := ⟨by decide, by decide⟩
theorem ldAHld : Statement .ldAHld := ⟨by decide, by decide⟩
theorem incRr (rr : Reg16) : Statement (.incRr rr) := ⟨Nat.le_of_ble_eq_true rfl, Nat.le_of_ble_eq_true rfl⟩
theorem decRr (rr : Reg16) : Statement (.decRr rr) := ⟨Nat.le_of_ble_eq_true rfl, Nat.le_of_ble_eq_true rfl⟩
theorem incR (r : Reg8) : Statement (.incR r) := ⟨Nat.le_of_ble_eq_true rfl, Nat.le_of_ble_eq_true rfl⟩
theorem incHl : Statement .incHl := ⟨by decide, by decide⟩
theorem decR (r : Reg8) : Statement (.decR r) := ⟨Nat.le_of_ble_eq_true rfl, Nat.le_of_ble_eq_true rfl⟩
theorem decHl : Statement .decHl := ⟨by decide, by decide⟩
theorem ldRN (r : Reg8) (n : Byte) : Statement (.ldRN r n) := ⟨Nat.le_of_ble_eq_true rfl, Nat.le_of_ble_eq_true rfl⟩
theorem ldHlN (n : Byte) : Statement (.ldHlN n) := ⟨Nat.le_of_ble_eq_true rfl, Nat.le_of_ble_eq_true rfl⟩
theorem rlca : Statement .rlca := ⟨by decide, by decide⟩
theorem rrca : Statement .rrca := ⟨by decide, by decide⟩
theorem rla : Statement .rla := ⟨by decide, by decide⟩
theorem rra : Statement .rra := ⟨by decide, by decide⟩
theorem daa : Statement .daa := ⟨by decide, by decide⟩
theorem cpl : Statement .cpl := ⟨by decide, by decide⟩
theorem scf : Statement .scf := ⟨by decide, by decide⟩
theorem ccf : Statement .ccf := ⟨by decide, by decide⟩
theorem ldRR (r r' : Reg8) : Statement (.ldRR r r') := ⟨Nat.le_of_ble_eq_true rfl, Nat.le_of_ble_eq_true rfl⟩
theorem ldRHl (r : Reg8) : Statement (.ldRHl r) := ⟨Nat.le_of_ble_eq_true rfl, Nat.le_of_ble_eq_true rfl⟩
theorem ldHlR (r : Reg8) : Statement (.ldHlR r) := ⟨Nat.le_of_ble_eq_true rfl, Nat.le_of_ble_eq_true rfl⟩
theorem halt : Statement .halt := ⟨by decide, by decide⟩
theorem addAR (r : Reg8) : Statement (.addAR r) := ⟨Nat.le_of_ble_eq_true rfl, Nat.le_of_ble_eq_true rfl⟩
theorem addAHl : Statement .addAHl := ⟨by decide, by decide⟩
theorem addAN (n : Byte) : Statement (.addAN n) := ⟨Nat.le_of_ble_eq_true rfl, Nat.le_of_ble_eq_true rfl⟩
theorem adcAR (r : Reg8) : Statement (.adcAR r) := ⟨Nat.le_of_ble_eq_true rfl, Nat.le_of_ble_eq_true rfl⟩
theorem adcAHl : Statement .adcAHl := ⟨by decide, by decide⟩
theorem adcAN (n : Byte) : Statement (.adcAN n) := ⟨Nat.le_of_ble_eq_true rfl, Nat.le_of_ble_eq_true rfl⟩
theorem subR (r : Reg8) : Statement (.subR r) := ⟨Nat.le_of_ble_eq_true rfl, Nat.le_of_ble_eq_true rfl⟩
theorem subHl : Statement .subHl := ⟨by decide, by decide⟩
theorem subN (n : Byte) : Statement (.subN n) := ⟨Nat.le_of_ble_eq_true rfl, Nat.le_of_ble_eq_true rfl⟩
theorem sbcAR (r : Reg8) : Statement (.sbcAR r) := ⟨Nat.le_of_ble_eq_true rfl, Nat.le_of_ble_eq_true rfl⟩
theorem sbcAHl : Statement .sbcAHl := ⟨by decide, by decide⟩
theorem sbcAN (n : Byte) : Statement (.sbcAN n) := ⟨Nat.le_of_ble_eq_true rfl, Nat.le_of_ble_eq_true rfl⟩
theorem andR (r : Reg8) : Statement (.andR r) := ⟨Nat.le_of_ble_eq_true rfl, Nat.le_of_ble_eq_true rfl⟩
theorem andHl : Statement .andHl := ⟨by decide, by decide⟩
theorem andN (n : Byte) : Statement (.andN n) := ⟨Nat.le_of_ble_eq_true rfl, Nat.le_of_ble_eq_true rfl⟩
theorem xorR (r : Reg8) : Statement (.xorR r) := ⟨Nat.le_of_ble_eq_true rfl, Nat.le_of_ble_eq_true rfl⟩
theorem xorHl : Statement .xorHl := ⟨by decide, by decide⟩
theorem xorN (n : Byte) : Statement (.xorN n) := ⟨Nat.le_of_ble_eq_true rfl, Nat.le_of_ble_eq_true rfl⟩
theorem orR (r : Reg8) : Statement (.orR r) := ⟨Nat.le_of_ble_eq_true rfl, Nat.le_of_ble_eq_true rfl⟩
theorem orHl : Statement .orHl := ⟨by decide, by decide⟩
theorem orN (n : Byte) : Statement (.orN n) := ⟨Nat.le_of_ble_eq_true rfl, Nat.le_of_ble_eq_true rfl⟩
theorem cpR (r : Reg8) : Statement (.cpR r) := ⟨Nat.le_of_ble_eq_true rfl, Nat.le_of_ble_eq_true rfl⟩
theorem cpHl : Statement .cpHl := ⟨by decide, by decide⟩
theorem cpN (n : Byte) : Statement (.cpN n) := ⟨Nat.le_of_ble_eq_true rfl, Nat.le_of_ble_eq_true rfl⟩
theorem retCc (cc : Cond) : Statement (.retCc cc) := ⟨Nat.le_of_ble_eq_true rfl, Nat.le_of_ble_eq_true rfl⟩
theorem ldhNA (n : Byte) : Statement (.ldhNA n) := ⟨Nat.le_of_ble_eq_true rfl, Nat.le_of_ble_eq_true rfl⟩
theorem addSpE (e : Byte) : Statement (.addSpE e) := ⟨Nat.le_of_ble_eq_true rfl, Nat.le_of_ble_eq_true rfl⟩
theorem ldhAN (n : Byte) : Statement (.ldhAN n) := ⟨Nat.le_of_ble_eq_true rfl, Nat.le_of_ble_eq_true rfl⟩
theorem ldHlSpE (e : Byte) : Statement (.ldHlSpE e) := ⟨Nat.le_of_ble_eq_true rfl, Nat.le_of_ble_eq_true rfl⟩
theorem popQq (qq : RegStk) : Statement (.popQq qq) := ⟨Nat.le_of_ble_eq_true rfl, Nat.le_of_ble_eq_true rfl⟩
theorem popAf : Statement .popAf := ⟨by decide, by decide⟩
theorem ret : Statement .ret := ⟨by decide, by decide⟩
theorem reti : Statement .reti := ⟨by decide, by decide⟩
theorem jpHl : Statement .jpHl := ⟨by decide, by decide⟩
theorem ldSpHl : Statement .ldSpHl := ⟨by decide, by decide⟩
theorem jpCcNn (cc : Cond) (nn : Word) : Statement (.jpCcNn cc nn) := ⟨Nat.le_of_ble_eq_true rfl, Nat.le_of_ble_eq_true rfl⟩
theorem ldhCA : Statement .ldhCA := ⟨by decide, by decide⟩
theorem ldNnA (nn : Word) : Statement (.ldNnA nn) := ⟨Nat.le_of_ble_eq_true rfl, Nat.le_of_ble_eq_true rfl⟩
theorem ldhAC : Statement .ldhAC := ⟨by decide, by decide⟩
theorem ldANn (nn : Word) : Statement (.ldANn nn) := ⟨Nat.le_of_ble_eq_true rfl, Nat.le_of_ble_eq_true rfl⟩
theorem jpNn (nn : Word) : Statement (.jpNn nn) := ⟨Nat.le_of_ble_eq_true rfl, Nat.le_of_ble_eq_true rfl⟩
theorem di : Statement .di := ⟨by decide, by decide⟩
theorem ei : Statement .ei := ⟨by decide, by decide⟩
theorem callCcNn (cc : Cond) (nn : Word) : Statement (.callCcNn cc nn) := ⟨Nat.le_of_ble_eq_true rfl, Nat.le_of_ble_eq_true rfl⟩
theorem pushQq (qq : RegStk) : Statement (.pushQq qq) := ⟨Nat.le_of_ble_eq_true rfl, Nat.le_of_ble_eq_true rfl⟩
theorem pushAf : Statement .pushAf := ⟨by decide, by decide⟩
theorem callNn (nn : Word) : Statement (.callNn nn) := ⟨Nat.le_of_ble_eq_true rfl, Nat.le_of_ble_eq_true rfl⟩
theorem rst (t : Word) : Statement (.rst t) := ⟨Nat.le_of_ble_eq_true rfl, Nat.le_of_ble_eq_true rfl⟩
theorem illegalD3 : Statement .illegalD3 := ⟨by decide, by decide⟩
theorem illegalDB : Statement .illegalDB := ⟨by decide, by decide⟩
theorem illegalDD : Statement .illegalDD := ⟨by decide, by decide⟩
theorem illegalE3 : Statement .illegalE3 := ⟨by decide, by decide⟩
theorem illegalE4 : Statement .illegalE4 := ⟨by decide, by decide⟩
theorem illegalEB : Statement .illegalEB := ⟨by decide, by decide⟩
theorem illegalEC : Statement .illegalEC := ⟨by decide, by decide⟩
theorem illegalED : Statement .illegalED := ⟨by decide, by decide⟩
theorem illegalF4 : Statement .illegalF4 := ⟨by decide, by decide⟩
theorem illegalFC : Statement .illegalFC := ⟨by decide, by decide⟩
theorem illegalFD : Statement .illegalFD := ⟨by decide, by decide⟩
theorem rlcR (r : Reg8) : Statement (.rlcR r) := ⟨Nat.le_of_ble_eq_true rfl, Nat.le_of_ble_eq_true rfl⟩
theorem rlcHl : Statement .rlcHl := ⟨by decide, by decide⟩
theorem rrcR (r : Reg8) : Statement (.rrcR r) := ⟨Nat.le_of_ble_eq_true rfl, Nat.le_of_ble_eq_true rfl⟩
theorem rrcHl : Statement .rrcHl := ⟨by decide, by decide⟩
theorem rlR (r : Reg8) : Statement (.rlR r) := ⟨Nat.le_of_ble_eq_true rfl, Nat.le_of_ble_eq_true rfl⟩
theorem rlHl : Statement .rlHl := ⟨by decide, by decide⟩
theorem rrR (r : Reg8) : Statement (.rrR r) := ⟨Nat.le_of_ble_eq_true rfl, Nat.le_of_ble_eq_true rfl⟩
theorem rrHl : Statement .rrHl := ⟨by decide, by decide⟩
theorem slaR (r : Reg8) : Statement (.slaR r) := ⟨Nat.le_of_ble_eq_true rfl, Nat.le_of_ble_eq_true rfl⟩
theorem slaHl : Statement .slaHl := ⟨by decide, by decide⟩
theorem sraR (r : Reg8) : Statement (.sraR r) := ⟨Nat.le_of_ble_eq_true rfl, Nat.le_of_ble_eq_true rfl⟩
theorem sraHl : Statement .sraHl := ⟨by decide, by decide⟩
theorem swapR (r : Reg8) : Statement (.swapR r) := ⟨Nat.le_of_ble_eq_true rfl, Nat.le_of_ble_eq_true rfl⟩
theorem swapHl : Statement .swapHl := ⟨by decide, by decide⟩
theorem srlR (r : Reg8) : Statement (.srlR r) := ⟨Nat.le_of_ble_eq_true rfl, Nat.le_of_ble_eq_true rfl⟩
theorem srlHl : Statement .srlHl := ⟨by decide, by decide⟩
theorem bitBR (b : BitVec 3) (r : Reg8) : Statement (.bitBR b r) := ⟨Nat.le_of_ble_eq_true rfl, Nat.le_of_ble_eq_true rfl⟩
theorem bitBHl (b : BitVec 3) : Statement (.bitBHl b) := ⟨Nat.le_of_ble_eq_true rfl, Nat.le_of_ble_eq_true rfl⟩
theorem resBR (b : BitVec 3) (r : Reg8) : Statement (.resBR b r) := ⟨Nat.le_of_ble_eq_true rfl, Nat.le_of_ble_eq_true rfl⟩
theorem resBHl (b : BitVec 3) : Statement (.resBHl b) := ⟨Nat.le_of_ble_eq_true rfl, Nat.le_of_ble_eq_true rfl⟩
theorem setBR (b : BitVec 3) (r : Reg8) : Statement (.setBR b r) := ⟨Nat.le_of_ble_eq_true rfl, Nat.le_of_ble_eq_true rfl⟩
theorem setBHl (b : BitVec 3) : Statement (.setBHl b) := ⟨Nat.le_of_ble_eq_true rfl, Nat.le_of_ble_eq_true rfl⟩

end Sys2Proof.Laws.Length
end

