-- ==== Sys2Proof/Tests/Slice0.lean ====
section
/-! SUPPORT. The model's own tests: the smoke test of WellFormed; for every constructor a word written out from the spec's
encoding; the one-step vectors of spec/95_test_vectors.md (expected values are the spec's); and for every obligation with
hypotheses states and operands that meet them. -/

namespace Sys2Proof.Tests
open Machine

/-! ### WellFormed refuses what no encoding stands for -/

theorem test_wellFormed_refuses_rst_between_targets : ¬ (Instr.rst 0x0001).WellFormed := by
  rw [← Instr.wellFormed_iff]; decide

theorem test_wellFormed_refuses_rst_above_the_last_target : ¬ (Instr.rst 0x0040).WellFormed := by
  rw [← Instr.wellFormed_iff]; decide

theorem test_wellFormed_refuses_push_of_code_3 : ¬ (Instr.pushQq .af).WellFormed := by
  rw [← Instr.wellFormed_iff]; decide

theorem test_wellFormed_refuses_pop_of_code_3 : ¬ (Instr.popQq .af).WellFormed := by
  rw [← Instr.wellFormed_iff]; decide

/-! ### Decoding -/

/-- The bytes are exactly one encoding of the instruction. -/
def decodesTo (bytes : List Byte) (i : Instr) : Bool :=
  match decode bytes with
  | .ok (j, []) => decide (j = i)
  | _ => false

/-- The words written from the encodings of spec/40_load8.md. -/
theorem test_decode_loads8 :
    (decodesTo [0b00000010] .ldBcA &&
      decodesTo [0b00010010] .ldDeA &&
      decodesTo [0b00100010] .ldHliA &&
      decodesTo [0b00110010] .ldHldA &&
      decodesTo [0b00001010] .ldABc &&
      decodesTo [0b00011010] .ldADe &&
      decodesTo [0b00101010] .ldAHli &&
      decodesTo [0b00111010] .ldAHld &&
      decodesTo [0b00000110, 0b10011010] (.ldRN .b 0x9A) &&
      decodesTo [0b00110110, 0b10011010] (.ldHlN 0x9A) &&
      decodesTo [0b01111000] (.ldRR .a .b) &&
      decodesTo [0b01101110] (.ldRHl .l) &&
      decodesTo [0b01110001] (.ldHlR .c) &&
      decodesTo [0b11100000, 0b10011010] (.ldhNA 0x9A) &&
      decodesTo [0b11110000, 0b10011010] (.ldhAN 0x9A) &&
      decodesTo [0b11100010] .ldhCA &&
      decodesTo [0b11101010, 0b00110100, 0b11010010] (.ldNnA 0xD234) &&
      decodesTo [0b11110010] .ldhAC &&
      decodesTo [0b11111010, 0b00110100, 0b11010010] (.ldANn 0xD234)) = true := by
  decide

/-- The words written from the encodings of spec/41_load16_stack.md. -/
theorem test_decode_loads16 :
    (decodesTo [0b00001000, 0b00110100, 0b11010010] (.ldNnSp 0xD234) &&
      decodesTo [0b00100001, 0b00110100, 0b11010010] (.ldRrNn .hl 0xD234) &&
      decodesTo [0b11111000, 0b11000101] (.ldHlSpE 0xC5) &&
      decodesTo [0b11100001] (.popQq .hl) &&
      decodesTo [0b11110001] .popAf &&
      decodesTo [0b11111001] .ldSpHl &&
      decodesTo [0b11100101] (.pushQq .hl) &&
      decodesTo [0b11110101] .pushAf) = true := by
  decide

/-- The words written from the encodings of spec/43_alu16.md. -/
theorem test_decode_alu16 :
    (decodesTo [0b00001001] (.addHlRr .bc) &&
      decodesTo [0b00110011] (.incRr .sp) &&
      decodesTo [0b00011011] (.decRr .de) &&
      decodesTo [0b11101000, 0b11000101] (.addSpE 0xC5)) = true := by
  decide

/-- The words written from the encodings of spec/42_alu8.md. -/
theorem test_decode_incdec :
    (decodesTo [0b00111100] (.incR .a) &&
      decodesTo [0b00110100] .incHl &&
      decodesTo [0b00100101] (.decR .h) &&
      decodesTo [0b00110101] .decHl &&
      decodesTo [0b00100111] .daa &&
      decodesTo [0b00101111] .cpl &&
      decodesTo [0b00110111] .scf &&
      decodesTo [0b00111111] .ccf) = true := by
  decide

/-- The words written from the encodings of spec/45_control.md. -/
theorem test_decode_control :
    (decodesTo [0b00011000, 0b11000101] (.jrE 0xC5) &&
      decodesTo [0b00101000, 0b11000101] (.jrCcE .z 0xC5) &&
      decodesTo [0b11011000] (.retCc .c) &&
      decodesTo [0b11001001] .ret &&
      decodesTo [0b11011001] .reti &&
      decodesTo [0b11101001] .jpHl &&
      decodesTo [0b11000010, 0b00110100, 0b11010010] (.jpCcNn .nz 0xD234) &&
      decodesTo [0b11000011, 0b00110100, 0b11010010] (.jpNn 0xD234) &&
      decodesTo [0b11000100, 0b00110100, 0b11010010] (.callCcNn .nz 0xD234) &&
      decodesTo [0b11001101, 0b00110100, 0b11010010] (.callNn 0xD234) &&
      decodesTo [0b11101111] (.rst 0x0028)) = true := by
  decide

/-- The words written from the encodings of spec/46_system.md. -/
theorem test_decode_system :
    (decodesTo [0b00000000] .nop &&
      decodesTo [0b00010000] .stop &&
      decodesTo [0b01110110] .halt &&
      decodesTo [0b11110011] .di &&
      decodesTo [0b11111011] .ei &&
      decodesTo [0b11010011] .illegalD3 &&
      decodesTo [0b11011011] .illegalDB &&
      decodesTo [0b11011101] .illegalDD &&
      decodesTo [0b11100011] .illegalE3 &&
      decodesTo [0b11100100] .illegalE4 &&
      decodesTo [0b11101011] .illegalEB &&
      decodesTo [0b11101100] .illegalEC &&
      decodesTo [0b11101101] .illegalED &&
      decodesTo [0b11110100] .illegalF4 &&
      decodesTo [0b11111100] .illegalFC &&
      decodesTo [0b11111101] .illegalFD) = true := by
  decide

/-- The words written from the encodings of spec/42_alu8.md. -/
theorem test_decode_arith :
    (decodesTo [0b10000101] (.addAR .l) &&
      decodesTo [0b10000110] .addAHl &&
      decodesTo [0b11000110, 0b10011010] (.addAN 0x9A) &&
      decodesTo [0b10001000] (.adcAR .b) &&
      decodesTo [0b10001110] .adcAHl &&
      decodesTo [0b11001110, 0b10011010] (.adcAN 0x9A) &&
      decodesTo [0b10010111] (.subR .a) &&
      decodesTo [0b10010110] .subHl &&
      decodesTo [0b11010110, 0b10011010] (.subN 0x9A) &&
      decodesTo [0b10011011] (.sbcAR .e) &&
      decodesTo [0b10011110] .sbcAHl &&
      decodesTo [0b11011110, 0b10011010] (.sbcAN 0x9A)) = true := by
  decide

/-- The words written from the encodings of spec/42_alu8.md. -/
theorem test_decode_logic :
    (decodesTo [0b10100001] (.andR .c) &&
      decodesTo [0b10100110] .andHl &&
      decodesTo [0b11100110, 0b10011010] (.andN 0x9A) &&
      decodesTo [0b10101100] (.xorR .h) &&
      decodesTo [0b10101110] .xorHl &&
      decodesTo [0b11101110, 0b10011010] (.xorN 0x9A) &&
      decodesTo [0b10110010] (.orR .d) &&
      decodesTo [0b10110110] .orHl &&
      decodesTo [0b11110110, 0b10011010] (.orN 0x9A) &&
      decodesTo [0b10111101] (.cpR .l) &&
      decodesTo [0b10111110] .cpHl &&
      decodesTo [0b11111110, 0b10011010] (.cpN 0x9A)) = true := by
  decide

/-- The words written from the encodings of spec/44_rotate_shift_bit.md. -/
theorem test_decode_acc_rotates :
    (decodesTo [0b00000111] .rlca &&
      decodesTo [0b00001111] .rrca &&
      decodesTo [0b00010111] .rla &&
      decodesTo [0b00011111] .rra) = true := by
  decide

/-- The words written from the encodings of spec/44_rotate_shift_bit.md. -/
theorem test_decode_rotates :
    (decodesTo [0b11001011, 0b00000000] (.rlcR .b) &&
      decodesTo [0b11001011, 0b00000110] .rlcHl &&
      decodesTo [0b11001011, 0b00001001] (.rrcR .c) &&
      decodesTo [0b11001011, 0b00001110] .rrcHl &&
      decodesTo [0b11001011, 0b00010101] (.rlR .l) &&
      decodesTo [0b11001011, 0b00010110] .rlHl &&
      decodesTo [0b11001011, 0b00011011] (.rrR .e) &&
      decodesTo [0b11001011, 0b00011110] .rrHl &&
      decodesTo [0b11001011, 0b00100010] (.slaR .d) &&
      decodesTo [0b11001011, 0b00100110] .slaHl &&
      decodesTo [0b11001011, 0b00101111] (.sraR .a) &&
      decodesTo [0b11001011, 0b00101110] .sraHl &&
      decodesTo [0b11001011, 0b00110100] (.swapR .h) &&
      decodesTo [0b11001011, 0b00110110] .swapHl &&
      decodesTo [0b11001011, 0b00111000] (.srlR .b) &&
      decodesTo [0b11001011, 0b00111110] .srlHl) = true := by
  decide

/-- The words written from the encodings of spec/44_rotate_shift_bit.md. -/
theorem test_decode_bits :
    (decodesTo [0b11001011, 0b01001001] (.bitBR 1 .c) &&
      decodesTo [0b11001011, 0b01110110] (.bitBHl 6) &&
      decodesTo [0b11001011, 0b10011101] (.resBR 3 .l) &&
      decodesTo [0b11001011, 0b10101110] (.resBHl 5) &&
      decodesTo [0b11001011, 0b11001011] (.setBR 1 .e) &&
      decodesTo [0b11001011, 0b11110110] (.setBHl 6)) = true := by
  decide

/-- R113, R114, R120: a byte list that ends inside an instruction is refused by name; the table's numbers are in stream order. -/
theorem test_decode_truncated_and_numbers :
    decode [] = .error .truncated ∧ decode [0xC3, 0x50] = .error .truncated ∧ decode [0xCB] = .error .truncated ∧
    decodeTableWord 24 0xC35001 = some (.jpNn 0x0150) ∧ decodeTableWord 8 0xFD = some .illegalFD ∧
    decodeTableWord 16 0xCBBF = some (.resBR 7 .a) := by
  decide

/-! ### The vectors of the spec, one step each -/

/-- A machine about to run the bytes at 0x0100, the stack at 0xD000. -/
def base (bytes : List Byte) : State :=
  { State.reset with pc := 0x0100, sp := 0xD000, flat := placeBytes [] 0x0100 bytes }

/-- The byte stored as the vector's bus state has it. -/
def wr (a : Word) (v : Byte) (s : State) : State := busWrite a v s

/-- The byte the bus answers. -/
def rd (a : Word) (s : State) : Byte :=
  match busRead a s with
  | .ok v _ => v
  | .raised _ => 0x00

/-- One step from `s` takes `m` M-cycles and leaves a state that passes the check. -/
def stepIs (s : State) (m : Nat) (check : State → Bool) : Bool :=
  match step s with
  | .next t => check t && t.cycles == 4 * m
  | .fault _ => false
  | .refused _ => false

/-- Vectors L1 to L6 of spec/95_test_vectors.md. -/
theorem test_ld_registers :
    (stepIs { base [0x41] with b := 0x12, c := 0x34 } 1 (fun t => t.b == 0x34 && t.c == 0x34 && t.pc == 0x0101 && t.f == 0x00) &&
      stepIs { base [0x16, 0xAB] with d := 0x00 } 2 (fun t => t.d == 0xAB && t.pc == 0x0102 && t.f == 0x00) &&
      stepIs (wr 0xC123 0x77 { base [0x5E] with h := 0xC1, l := 0x23 }) 2 (fun t => t.e == 0x77 && t.pc == 0x0101 && t.f == 0x00) &&
      stepIs (wr 0xC123 0x77 { base [0x66] with h := 0xC1, l := 0x23 }) 2 (fun t => t.hl == 0x7723 && t.pc == 0x0101 && t.f == 0x00) &&
      stepIs { base [0x75] with h := 0xC1, l := 0x23 } 2 (fun t => rd 0xC123 t == 0x23 && t.pc == 0x0101 && t.f == 0x00) &&
      stepIs { base [0x36, 0x5A] with h := 0xC2, l := 0x00 } 3 (fun t => rd 0xC200 t == 0x5A && t.pc == 0x0102 && t.f == 0x00)) = true := by
  decide

/-- Vectors L7 to L12 of spec/95_test_vectors.md. -/
theorem test_ld_a_and_pairs :
    (stepIs (wr 0xC300 0x2F { base [0x0A] with b := 0xC3, c := 0x00 }) 2 (fun t => t.a == 0x2F && t.pc == 0x0101 && t.f == 0x00) &&
      stepIs (wr 0xC301 0x5F { base [0x1A] with d := 0xC3, e := 0x01 }) 2 (fun t => t.a == 0x5F && t.pc == 0x0101 && t.f == 0x00) &&
      stepIs { base [0x02] with b := 0xC3, c := 0x02, a := 0x3F } 2 (fun t => rd 0xC302 t == 0x3F && t.pc == 0x0101 && t.f == 0x00) &&
      stepIs { base [0x12] with d := 0xC3, e := 0x03, a := 0x4F } 2 (fun t => rd 0xC303 t == 0x4F && t.pc == 0x0101 && t.f == 0x00) &&
      stepIs (wr 0xC234 0x99 (base [0xFA, 0x34, 0xC2])) 4 (fun t => t.a == 0x99 && t.pc == 0x0103 && t.f == 0x00) &&
      stepIs { base [0xEA, 0x35, 0xC2] with a := 0x66 } 4 (fun t => rd 0xC235 t == 0x66 && t.pc == 0x0103 && t.f == 0x00)) = true := by
  decide

/-- Vectors L13 to L16 of spec/95_test_vectors.md. -/
theorem test_ldh :
    (stepIs { base [0xE0, 0x80] with a := 0x42 } 3 (fun t => rd 0xFF80 t == 0x42 && t.pc == 0x0102 && t.f == 0x00) &&
      stepIs { base [0xF0, 0x0F] with ifr := 0x05 } 3 (fun t => t.a == 0xE5 && t.pc == 0x0102 && t.f == 0x00) &&
      stepIs { base [0xE2] with a := 0xFF, c := 0x07 } 2 (fun t => t.tac == 0x07 && rd 0xFF07 t == 0xFF && t.pc == 0x0101 && t.f == 0x00) &&
      stepIs { base [0xF2] with c := 0xFF, ie := 0x1F } 2 (fun t => t.a == 0x1F && t.pc == 0x0101 && t.f == 0x00)) = true := by
  decide

/-- Vectors L17 to L20 of spec/95_test_vectors.md. -/
theorem test_ld_hl_step :
    (stepIs { base [0x2A] with h := 0xFF, l := 0xFF, ie := 0x15 } 2 (fun t => t.a == 0x15 && t.hl == 0x0000 && t.pc == 0x0101 && t.f == 0x00) &&
      stepIs (wr 0x0000 0xC3 { base [0x3A] with h := 0x00, l := 0x00 }) 2 (fun t => t.a == 0xC3 && t.hl == 0xFFFF && t.pc == 0x0101 && t.f == 0x00) &&
      stepIs { base [0x22] with h := 0xC0, l := 0xFF, a := 0x11 } 2 (fun t => rd 0xC0FF t == 0x11 && t.hl == 0xC100 && t.pc == 0x0101 && t.f == 0x00) &&
      stepIs { base [0x32] with h := 0xC1, l := 0x00, a := 0x22 } 2 (fun t => rd 0xC100 t == 0x22 && t.hl == 0xC0FF && t.pc == 0x0101 && t.f == 0x00)) = true := by
  decide

/-- Vectors L21 to L24 of spec/95_test_vectors.md. -/
theorem test_ld_words :
    (stepIs { base [0x31, 0xFE, 0xFF] with sp := 0xD000 } 3 (fun t => t.sp == 0xFFFE && t.pc == 0x0103 && t.f == 0x00) &&
      stepIs { base [0x08, 0x00, 0xC4] with sp := 0xD123 } 5 (fun t => rd 0xC400 t == 0x23 && rd 0xC401 t == 0xD1 && t.pc == 0x0103 && t.f == 0x00) &&
      stepIs { base [0x08, 0xFF, 0xFF] with sp := 0x1F05 } 5 (fun t => t.ie == 0x05 && rd 0x0000 t == 0x1F && t.pc == 0x0103 && t.f == 0x00) &&
      stepIs { base [0xF9] with h := 0xDF, l := 0xF0 } 2 (fun t => t.sp == 0xDFF0 && t.pc == 0x0101 && t.f == 0x00)) = true := by
  decide

/-- Vectors L25 to L30 of spec/95_test_vectors.md. -/
theorem test_push_pop :
    (stepIs { base [0xC5] with sp := 0xD000, b := 0x12, c := 0x34 } 4 (fun t => t.sp == 0xCFFE && rd 0xCFFF t == 0x12 && rd 0xCFFE t == 0x34 && t.pc == 0x0101 && t.f == 0x00) &&
      stepIs { base [0xF5] with sp := 0xD000, a := 0x9A, f := 0x50 } 4 (fun t => t.sp == 0xCFFE && rd 0xCFFF t == 0x9A && rd 0xCFFE t == 0x50 && t.pc == 0x0101 && t.f == 0x50) &&
      stepIs { base [0xE5] with sp := 0x0001, h := 0x1F, l := 0x80 } 4 (fun t => t.sp == 0xFFFF && rd 0x0000 t == 0x1F && t.ie == 0x80 && t.pc == 0x0101 && t.f == 0x00) &&
      stepIs (wr 0xCFFE 0x34 (wr 0xCFFF 0x12 { base [0xD1] with sp := 0xCFFE })) 3 (fun t => t.de == 0x1234 && t.sp == 0xD000 && t.pc == 0x0101 && t.f == 0x00) &&
      stepIs (wr 0xCFFE 0xFF (wr 0xCFFF 0x12 { base [0xF1] with sp := 0xCFFE })) 3 (fun t => t.a == 0x12 && t.f == 0xF0 && t.sp == 0xD000 && t.pc == 0x0101) &&
      stepIs (wr 0xCFFE 0x0F (wr 0xCFFF 0x00 { base [0xF1] with sp := 0xCFFE })) 3 (fun t => t.a == 0x00 && t.f == 0x00 && t.sp == 0xD000 && t.pc == 0x0101)) = true := by
  decide

/-- Vectors A1 to A10 of spec/95_test_vectors.md. -/
theorem test_add_adc :
    (stepIs { base [0x80] with a := 0x3A, f := 0x00, b := 0xC6 } 1 (fun t => t.a == 0x00 && t.f == 0xB0 && t.pc == 0x0101) &&
      stepIs { base [0x80] with a := 0x0F, f := 0x00, b := 0x01 } 1 (fun t => t.a == 0x10 && t.f == 0x20 && t.pc == 0x0101) &&
      stepIs { base [0x87] with a := 0x80, f := 0x00 } 1 (fun t => t.a == 0x00 && t.f == 0x90 && t.pc == 0x0101) &&
      stepIs { base [0xC6, 0xFF] with a := 0x01, f := 0xF0 } 2 (fun t => t.a == 0x00 && t.f == 0xB0 && t.pc == 0x0102) &&
      stepIs (wr 0xC000 0x12 { base [0x86] with a := 0x3C, f := 0x00, h := 0xC0, l := 0x00 }) 2 (fun t => t.a == 0x4E && t.f == 0x00 && t.pc == 0x0101) &&
      stepIs { base [0x88] with a := 0xE1, f := 0x10, b := 0x0F } 1 (fun t => t.a == 0xF1 && t.f == 0x20 && t.pc == 0x0101) &&
      stepIs { base [0xCE, 0x3B] with a := 0xE1, f := 0x10 } 2 (fun t => t.a == 0x1D && t.f == 0x10 && t.pc == 0x0102) &&
      stepIs (wr 0xC000 0x1E { base [0x8E] with a := 0xE1, f := 0x10, h := 0xC0, l := 0x00 }) 2 (fun t => t.a == 0x00 && t.f == 0xB0 && t.pc == 0x0101) &&
      stepIs { base [0x88] with a := 0xFF, f := 0x10, b := 0x00 } 1 (fun t => t.a == 0x00 && t.f == 0xB0 && t.pc == 0x0101) &&
      stepIs { base [0x88] with a := 0x0F, f := 0x10, b := 0x00 } 1 (fun t => t.a == 0x10 && t.f == 0x20 && t.pc == 0x0101)) = true := by
  decide

/-- Vectors A11 to A19 of spec/95_test_vectors.md. -/
theorem test_sub_sbc :
    (stepIs { base [0x90] with a := 0x3E, f := 0x00, b := 0x3E } 1 (fun t => t.a == 0x00 && t.f == 0xC0 && t.pc == 0x0101) &&
      stepIs { base [0xD6, 0x0F] with a := 0x3E, f := 0x00 } 2 (fun t => t.a == 0x2F && t.f == 0x60 && t.pc == 0x0102) &&
      stepIs (wr 0xC000 0x40 { base [0x96] with a := 0x3E, f := 0x00, h := 0xC0, l := 0x00 }) 2 (fun t => t.a == 0xFE && t.f == 0x50 && t.pc == 0x0101) &&
      stepIs { base [0x97] with a := 0x5A, f := 0x10 } 1 (fun t => t.a == 0x00 && t.f == 0xC0 && t.pc == 0x0101) &&
      stepIs { base [0x98] with a := 0x3B, f := 0x10, b := 0x2A } 1 (fun t => t.a == 0x10 && t.f == 0x40 && t.pc == 0x0101) &&
      stepIs { base [0xDE, 0x3A] with a := 0x3B, f := 0x10 } 2 (fun t => t.a == 0x00 && t.f == 0xC0 && t.pc == 0x0102) &&
      stepIs (wr 0xC000 0x4F { base [0x9E] with a := 0x3B, f := 0x10, h := 0xC0, l := 0x00 }) 2 (fun t => t.a == 0xEB && t.f == 0x70 && t.pc == 0x0101) &&
      stepIs { base [0x98] with a := 0x00, f := 0x10, b := 0xFF } 1 (fun t => t.a == 0x00 && t.f == 0xF0 && t.pc == 0x0101) &&
      stepIs { base [0x9F] with a := 0x77, f := 0x10 } 1 (fun t => t.a == 0xFF && t.f == 0x70 && t.pc == 0x0101)) = true := by
  decide

/-- Vectors A20 to A28 of spec/95_test_vectors.md. -/
theorem test_logic :
    (stepIs { base [0xA0] with a := 0x5A, f := 0x10, b := 0x3F } 1 (fun t => t.a == 0x1A && t.f == 0x20 && t.pc == 0x0101) &&
      stepIs { base [0xE6, 0x38] with a := 0x5A, f := 0x00 } 2 (fun t => t.a == 0x18 && t.f == 0x20 && t.pc == 0x0102) &&
      stepIs (wr 0xC000 0x00 { base [0xA6] with a := 0x5A, f := 0x00, h := 0xC0, l := 0x00 }) 2 (fun t => t.a == 0x00 && t.f == 0xA0 && t.pc == 0x0101) &&
      stepIs { base [0xAF] with a := 0xFF, f := 0xF0 } 1 (fun t => t.a == 0x00 && t.f == 0x80 && t.pc == 0x0101) &&
      stepIs { base [0xEE, 0x0F] with a := 0xFF, f := 0x00 } 2 (fun t => t.a == 0xF0 && t.f == 0x00 && t.pc == 0x0102) &&
      stepIs (wr 0xC000 0x8A { base [0xAE] with a := 0xFF, f := 0x00, h := 0xC0, l := 0x00 }) 2 (fun t => t.a == 0x75 && t.f == 0x00 && t.pc == 0x0101) &&
      stepIs { base [0xB0] with a := 0x5A, f := 0xF0, b := 0x0F } 1 (fun t => t.a == 0x5F && t.f == 0x00 && t.pc == 0x0101) &&
      stepIs { base [0xF6, 0x03] with a := 0x5A, f := 0x00 } 2 (fun t => t.a == 0x5B && t.f == 0x00 && t.pc == 0x0102) &&
      stepIs { base [0xB7] with a := 0x00, f := 0x70 } 1 (fun t => t.a == 0x00 && t.f == 0x80 && t.pc == 0x0101)) = true := by
  decide

/-- Vectors A29 to A31 of spec/95_test_vectors.md. -/
theorem test_cp :
    (stepIs { base [0xB8] with a := 0x3C, f := 0x00, b := 0x2F } 1 (fun t => t.a == 0x3C && t.f == 0x60 && t.pc == 0x0101) &&
      stepIs { base [0xFE, 0x3C] with a := 0x3C, f := 0x00 } 2 (fun t => t.a == 0x3C && t.f == 0xC0 && t.pc == 0x0102) &&
      stepIs (wr 0xC000 0x40 { base [0xBE] with a := 0x3C, f := 0x00, h := 0xC0, l := 0x00 }) 2 (fun t => t.a == 0x3C && t.f == 0x50 && t.pc == 0x0101)) = true := by
  decide

/-- Vectors A32 to A37 of spec/95_test_vectors.md. -/
theorem test_inc_dec :
    (stepIs { base [0x3C] with a := 0xFF, f := 0x10 } 1 (fun t => t.a == 0x00 && t.f == 0xB0 && t.pc == 0x0101) &&
      stepIs { base [0x04] with a := 0x00, f := 0x00, b := 0x0F } 1 (fun t => t.b == 0x10 && t.f == 0x20 && t.pc == 0x0101) &&
      stepIs (wr 0xC000 0x50 { base [0x34] with a := 0x00, f := 0x10, h := 0xC0, l := 0x00 }) 3 (fun t => rd t.hl t == 0x51 && t.f == 0x10 && t.pc == 0x0101) &&
      stepIs { base [0x3D] with a := 0x01, f := 0x10 } 1 (fun t => t.a == 0x00 && t.f == 0xD0 && t.pc == 0x0101) &&
      stepIs { base [0x2D] with a := 0x00, f := 0x00, l := 0x00 } 1 (fun t => t.l == 0xFF && t.f == 0x60 && t.pc == 0x0101) &&
      stepIs (wr 0xC000 0x00 { base [0x35] with a := 0x00, f := 0x00, h := 0xC0, l := 0x00 }) 3 (fun t => rd t.hl t == 0xFF && t.f == 0x60 && t.pc == 0x0101)) = true := by
  decide

/-- Vectors A38 to A43 of spec/95_test_vectors.md. -/
theorem test_daa :
    (stepIs { base [0x27] with a := 0x7D, f := 0x00 } 1 (fun t => t.a == 0x83 && t.f == 0x00 && t.pc == 0x0101) &&
      stepIs { base [0x27] with a := 0x9A, f := 0x00 } 1 (fun t => t.a == 0x00 && t.f == 0x90 && t.pc == 0x0101) &&
      stepIs { base [0x27] with a := 0x00, f := 0x70 } 1 (fun t => t.a == 0x9A && t.f == 0x50 && t.pc == 0x0101) &&
      stepIs { base [0x27] with a := 0x4B, f := 0x40 } 1 (fun t => t.a == 0x4B && t.f == 0x40 && t.pc == 0x0101) &&
      stepIs { base [0x27] with a := 0x0F, f := 0x20 } 1 (fun t => t.a == 0x15 && t.f == 0x00 && t.pc == 0x0101) &&
      stepIs { base [0x27] with a := 0xA0, f := 0x00 } 1 (fun t => t.a == 0x00 && t.f == 0x90 && t.pc == 0x0101)) = true := by
  decide

/-- Vectors A44 to A47 of spec/95_test_vectors.md. -/
theorem test_cpl_scf_ccf :
    (stepIs { base [0x2F] with a := 0x35, f := 0x80 } 1 (fun t => t.a == 0xCA && t.f == 0xE0 && t.pc == 0x0101) &&
      stepIs { base [0x37] with a := 0x00, f := 0xE0 } 1 (fun t => t.a == 0x00 && t.f == 0x90 && t.pc == 0x0101) &&
      stepIs { base [0x3F] with a := 0x00, f := 0xF0 } 1 (fun t => t.a == 0x00 && t.f == 0x80 && t.pc == 0x0101) &&
      stepIs { base [0x3F] with a := 0x00, f := 0x00 } 1 (fun t => t.a == 0x00 && t.f == 0x10 && t.pc == 0x0101)) = true := by
  decide

/-- Vectors W1 to W7 of spec/95_test_vectors.md. -/
theorem test_add_hl_and_word_steps :
    (stepIs { base [0x09] with h := 0x8A, l := 0x23, b := 0x06, c := 0x05, f := 0x80 } 2 (fun t => t.hl == 0x9028 && t.f == 0xA0 && t.pc == 0x0101) &&
      stepIs { base [0x29] with h := 0x8A, l := 0x23, f := 0x00 } 2 (fun t => t.hl == 0x1446 && t.f == 0x30 && t.pc == 0x0101) &&
      stepIs { base [0x19] with h := 0xFF, l := 0xFF, d := 0x00, e := 0x01, f := 0x00 } 2 (fun t => t.hl == 0x0000 && t.f == 0x30 && t.pc == 0x0101) &&
      stepIs { base [0x39] with h := 0x0F, l := 0xFF, sp := 0x0001, f := 0xF0 } 2 (fun t => t.hl == 0x1000 && t.f == 0xA0 && t.pc == 0x0101) &&
      stepIs { base [0x03] with b := 0xFF, c := 0xFF, f := 0x50 } 2 (fun t => t.bc == 0x0000 && t.f == 0x50 && t.pc == 0x0101) &&
      stepIs { base [0x1B] with d := 0x00, e := 0x00, f := 0xA0 } 2 (fun t => t.de == 0xFFFF && t.f == 0xA0 && t.pc == 0x0101) &&
      stepIs { base [0x33] with sp := 0x00FF } 2 (fun t => t.sp == 0x0100 && t.f == 0x00 && t.pc == 0x0101)) = true := by
  decide

/-- Vectors W8 to W15 of spec/95_test_vectors.md. -/
theorem test_sp_plus_byte :
    (stepIs { base [0xE8, 0x01] with sp := 0x0FFF, f := 0x80 } 4 (fun t => t.sp == 0x1000 && t.f == 0x30 && t.pc == 0x0102) &&
      stepIs { base [0xE8, 0xFF] with sp := 0x0000, f := 0x00 } 4 (fun t => t.sp == 0xFFFF && t.f == 0x00 && t.pc == 0x0102) &&
      stepIs { base [0xE8, 0xFF] with sp := 0x0001, f := 0x00 } 4 (fun t => t.sp == 0x0000 && t.f == 0x30 && t.pc == 0x0102) &&
      stepIs { base [0xE8, 0x80] with sp := 0xD080, f := 0x00 } 4 (fun t => t.sp == 0xD000 && t.f == 0x10 && t.pc == 0x0102) &&
      stepIs { base [0xE8, 0x7F] with sp := 0xFFF1, f := 0x00 } 4 (fun t => t.sp == 0x0070 && t.f == 0x30 && t.pc == 0x0102) &&
      stepIs { base [0xF8, 0x01] with sp := 0x0FFF, f := 0xC0 } 3 (fun t => t.hl == 0x1000 && t.sp == 0x0FFF && t.f == 0x30 && t.pc == 0x0102) &&
      stepIs { base [0xF8, 0x02] with sp := 0xFFF8, f := 0x00 } 3 (fun t => t.hl == 0xFFFA && t.sp == 0xFFF8 && t.f == 0x00 && t.pc == 0x0102) &&
      stepIs { base [0xF8, 0xF8] with sp := 0xD008, f := 0x00 } 3 (fun t => t.hl == 0xD000 && t.sp == 0xD008 && t.f == 0x30 && t.pc == 0x0102)) = true := by
  decide

/-- Vectors Q1 to Q7 of spec/95_test_vectors.md. -/
theorem test_accumulator_rotates :
    (stepIs { base [0x07] with a := 0x85, f := 0x00 } 1 (fun t => t.a == 0x0B && t.f == 0x10 && t.pc == 0x0101) &&
      stepIs { base [0x07] with a := 0x00, f := 0xF0 } 1 (fun t => t.a == 0x00 && t.f == 0x00 && t.pc == 0x0101) &&
      stepIs { base [0x0F] with a := 0x01, f := 0x00 } 1 (fun t => t.a == 0x80 && t.f == 0x10 && t.pc == 0x0101) &&
      stepIs { base [0x17] with a := 0x80, f := 0x00 } 1 (fun t => t.a == 0x00 && t.f == 0x10 && t.pc == 0x0101) &&
      stepIs { base [0x17] with a := 0x95, f := 0x10 } 1 (fun t => t.a == 0x2B && t.f == 0x10 && t.pc == 0x0101) &&
      stepIs { base [0x1F] with a := 0x01, f := 0x00 } 1 (fun t => t.a == 0x00 && t.f == 0x10 && t.pc == 0x0101) &&
      stepIs { base [0x1F] with a := 0x00, f := 0x90 } 1 (fun t => t.a == 0x80 && t.f == 0x00 && t.pc == 0x0101)) = true := by
  decide

/-- Vectors Q8 to Q13 of spec/95_test_vectors.md. -/
theorem test_cb_rotates :
    (stepIs { base [0xCB, 0x00] with b := 0x80, f := 0x00 } 2 (fun t => t.b == 0x01 && t.f == 0x10 && t.pc == 0x0102) &&
      stepIs { base [0xCB, 0x00] with b := 0x00, f := 0x70 } 2 (fun t => t.b == 0x00 && t.f == 0x80 && t.pc == 0x0102) &&
      stepIs { base [0xCB, 0x0F] with a := 0x01, f := 0x00 } 2 (fun t => t.a == 0x80 && t.f == 0x10 && t.pc == 0x0102) &&
      stepIs { base [0xCB, 0x11] with c := 0x80, f := 0x00 } 2 (fun t => t.c == 0x00 && t.f == 0x90 && t.pc == 0x0102) &&
      stepIs { base [0xCB, 0x1A] with d := 0x01, f := 0x00 } 2 (fun t => t.d == 0x00 && t.f == 0x90 && t.pc == 0x0102) &&
      stepIs (wr 0xC000 0x8A { base [0xCB, 0x1E] with h := 0xC0, l := 0x00, f := 0x10 }) 4 (fun t => rd 0xC000 t == 0xC5 && t.f == 0x00 && t.pc == 0x0102)) = true := by
  decide

/-- Vectors Q14 to Q21 of spec/95_test_vectors.md. -/
theorem test_cb_shifts :
    (stepIs { base [0xCB, 0x23] with e := 0x80, f := 0x00 } 2 (fun t => t.e == 0x00 && t.f == 0x90 && t.pc == 0x0102) &&
      stepIs (wr 0xC000 0xFF { base [0xCB, 0x26] with h := 0xC0, l := 0x00, f := 0x00 }) 4 (fun t => rd 0xC000 t == 0xFE && t.f == 0x10 && t.pc == 0x0102) &&
      stepIs { base [0xCB, 0x2C] with h := 0x8A, f := 0x00 } 2 (fun t => t.h == 0xC5 && t.f == 0x00 && t.pc == 0x0102) &&
      stepIs { base [0xCB, 0x2D] with l := 0x01, f := 0x00 } 2 (fun t => t.l == 0x00 && t.f == 0x90 && t.pc == 0x0102) &&
      stepIs { base [0xCB, 0x37] with a := 0xF1, f := 0xF0 } 2 (fun t => t.a == 0x1F && t.f == 0x00 && t.pc == 0x0102) &&
      stepIs (wr 0xC000 0x00 { base [0xCB, 0x36] with h := 0xC0, l := 0x00, f := 0x10 }) 4 (fun t => rd 0xC000 t == 0x00 && t.f == 0x80 && t.pc == 0x0102) &&
      stepIs { base [0xCB, 0x38] with b := 0x01, f := 0x00 } 2 (fun t => t.b == 0x00 && t.f == 0x90 && t.pc == 0x0102) &&
      stepIs (wr 0xC000 0xFF { base [0xCB, 0x3E] with h := 0xC0, l := 0x00, f := 0x00 }) 4 (fun t => rd 0xC000 t == 0x7F && t.f == 0x10 && t.pc == 0x0102)) = true := by
  decide

/-- Vectors Q22 to Q28 of spec/95_test_vectors.md. -/
theorem test_bit_res_set :
    (stepIs { base [0xCB, 0x7F] with a := 0x80, f := 0x10 } 2 (fun t => t.a == 0x80 && t.f == 0x30 && t.pc == 0x0102) &&
      stepIs { base [0xCB, 0x65] with l := 0xEF, f := 0x00 } 2 (fun t => t.l == 0xEF && t.f == 0xA0 && t.pc == 0x0102) &&
      stepIs (wr 0xC000 0xFE { base [0xCB, 0x46] with h := 0xC0, l := 0x00, f := 0x50 }) 3 (fun t => rd 0xC000 t == 0xFE && t.f == 0xB0 && t.pc == 0x0102) &&
      stepIs { base [0xCB, 0xBF] with a := 0xFF, f := 0xF0 } 2 (fun t => t.a == 0x7F && t.f == 0xF0 && t.pc == 0x0102) &&
      stepIs (wr 0xC000 0xFF { base [0xCB, 0x9E] with h := 0xC0, l := 0x00 }) 4 (fun t => rd 0xC000 t == 0xF7 && t.pc == 0x0102 && t.f == 0x00) &&
      stepIs { base [0xCB, 0xD8] with b := 0x00 } 2 (fun t => t.b == 0x08 && t.pc == 0x0102 && t.f == 0x00) &&
      stepIs { base [0xCB, 0xD6] with h := 0xFF, l := 0x07, tac := 0x01 } 4 (fun t => t.tac == 0x05 && rd 0xFF07 t == 0xFD && t.pc == 0x0102 && t.f == 0x00)) = true := by
  decide

/-- Vectors J1 to J5 of spec/95_test_vectors.md. -/
theorem test_jp :
    (stepIs { base [0xC3, 0x50, 0x01] with pc := 0x0100 } 4 (fun t => t.pc == 0x0150 && t.f == 0x00) &&
      stepIs { base [0xC2, 0x00, 0x03] with pc := 0x0100, f := 0x00 } 4 (fun t => t.pc == 0x0300 && t.f == 0x00) &&
      stepIs { base [0xC2, 0x00, 0x03] with pc := 0x0100, f := 0x80 } 3 (fun t => t.pc == 0x0103 && t.f == 0x80) &&
      stepIs { base [0xDA, 0x00, 0x03] with pc := 0x0100, f := 0x10 } 4 (fun t => t.pc == 0x0300 && t.f == 0x10) &&
      stepIs { base [0xE9] with pc := 0x0100, h := 0x40, l := 0x00 } 1 (fun t => t.pc == 0x4000 && t.f == 0x00)) = true := by
  decide

/-- Vectors J6 to J13 of spec/95_test_vectors.md. -/
theorem test_jr :
    (stepIs { base [0x18, 0x05] with pc := 0x0100 } 3 (fun t => t.pc == 0x0107 && t.f == 0x00) &&
      stepIs { base [0x18, 0xFB] with pc := 0x0100 } 3 (fun t => t.pc == 0x00FD && t.f == 0x00) &&
      stepIs { base [0x18, 0xFE] with pc := 0x0100 } 3 (fun t => t.pc == 0x0100 && t.f == 0x00) &&
      stepIs { base [0x18, 0x80] with pc := 0x0100 } 3 (fun t => t.pc == 0x0082 && t.f == 0x00) &&
      stepIs { base [0x18, 0x7F] with pc := 0x0100 } 3 (fun t => t.pc == 0x0181 && t.f == 0x00) &&
      stepIs { base [0x28, 0x10] with pc := 0x0100, f := 0x80 } 3 (fun t => t.pc == 0x0112 && t.f == 0x80) &&
      stepIs { base [0x28, 0x10] with pc := 0x0100, f := 0x00 } 2 (fun t => t.pc == 0x0102 && t.f == 0x00) &&
      stepIs { base [0x30, 0x10] with pc := 0x0100, f := 0x10 } 2 (fun t => t.pc == 0x0102 && t.f == 0x10)) = true := by
  decide

/-- Vectors J14 to J16 of spec/95_test_vectors.md. -/
theorem test_call_rst :
    (stepIs { base [0xCD, 0x34, 0x12] with pc := 0x0100, sp := 0xD000 } 6 (fun t => t.pc == 0x1234 && t.sp == 0xCFFE && rd 0xCFFF t == 0x01 && rd 0xCFFE t == 0x03 && t.f == 0x00) &&
      stepIs { base [0xCC, 0x34, 0x12] with pc := 0x0100, sp := 0xD000, f := 0x00 } 3 (fun t => t.pc == 0x0103 && t.sp == 0xD000 && t.f == 0x00) &&
      stepIs { base [0xD4, 0x34, 0x12] with pc := 0x0100, sp := 0xD000, f := 0x00 } 6 (fun t => t.pc == 0x1234 && t.sp == 0xCFFE && rd 0xCFFF t == 0x01 && rd 0xCFFE t == 0x03 && t.f == 0x00)) = true := by
  decide

/-- Vectors J17 to J20 of spec/95_test_vectors.md. -/
theorem test_ret :
    (stepIs (wr 0xCFFE 0x03 (wr 0xCFFF 0x01 { base [0xC9] with sp := 0xCFFE })) 4 (fun t => t.pc == 0x0103 && t.sp == 0xD000 && t.f == 0x00) &&
      stepIs { base [0xC0] with sp := 0xCFFE, f := 0x80 } 2 (fun t => t.pc == 0x0101 && t.sp == 0xCFFE && t.f == 0x80) &&
      stepIs (wr 0xCFFE 0x03 (wr 0xCFFF 0x01 { base [0xD8] with sp := 0xCFFE, f := 0x10 })) 5 (fun t => t.pc == 0x0103 && t.sp == 0xD000 && t.f == 0x10) &&
      stepIs (wr 0xCFFE 0x23 (wr 0xCFFF 0x01 { base [0xD9] with sp := 0xCFFE, ime := false })) 4 (fun t => t.pc == 0x0123 && t.sp == 0xD000 && t.ime == true && t.f == 0x00)) = true := by
  decide

/-- Vectors J21 to J22 of spec/95_test_vectors.md. -/
theorem test_rst :
    (stepIs { base [0xEF] with pc := 0x0100, sp := 0xD000 } 4 (fun t => t.pc == 0x0028 && t.sp == 0xCFFE && rd 0xCFFF t == 0x01 && rd 0xCFFE t == 0x01 && t.f == 0x00) &&
      stepIs { base [0xFF] with pc := 0x0100, sp := 0x0000 } 4 (fun t => t.pc == 0x0038 && t.sp == 0xFFFE && t.ie == 0x01 && rd 0xFFFE t == 0x01 && t.f == 0x00)) = true := by
  decide


/-- Y1 to Y8: NOP, HALT, the halted tick, the wake, EI, DI. -/
theorem test_system :
    (stepIs (base [0x00]) 1 (fun t => t == { base [0x00] with
        pc := 0x0101, counter := 4, cycles := 4, curOp := some 0x00, opaddr := 0x0100 }) &&
      stepIs { base [0x76, 0x3C] with ie := 0x01 } 1 (fun t => t.halted && !t.haltBug && t.pc == 0x0101) &&
      stepIs { base [0x76, 0x3C] with ie := 0x01, halted := true, pc := 0x0101 } 1 (fun t => t.halted && t.pc == 0x0101) &&
      stepIs { base [0x76, 0x3C] with ie := 0x01, ifr := 0x01, halted := true, pc := 0x0101 } 1 (fun t =>
        t.a == 0x01 && t.pc == 0x0102 && !t.halted && !t.ime && t.ifr == 0x01) &&
      stepIs { base [0xFB] with ie := 0x04, ifr := 0x04 } 1 (fun t => t.pc == 0x0101 && !t.ime && t.eiDelay) &&
      stepIs { base [0x3C] with ie := 0x04, ifr := 0x04, eiDelay := true } 1 (fun t =>
        t.a == 0x01 && t.ime && !t.eiDelay && t.ifr == 0x04) &&
      stepIs { base [0xF3] with ie := 0x01, ifr := 0x01, eiDelay := true } 1 (fun t => !t.ime && !t.eiDelay) &&
      stepIs { base [0xFB] with ie := 0x01, ifr := 0x01, eiDelay := true } 1 (fun t => t.ime && t.eiDelay) &&
      stepIs { base [0x76] with ie := 0x01, ifr := 0x01, eiDelay := true } 1 (fun t => t.ime && t.halted && !t.haltBug) &&
      stepIs { base [0xF3] with ime := true } 1 (fun t => !t.ime && t.pc == 0x0101)) = true := by
  decide

/-- S8: the halt bug reads the byte after HALT twice, as opcode and, where the opcode has one, as operand. -/
theorem test_halt_bug :
    (stepIs { base [0x76, 0x3C] with ie := 0x01, ifr := 0x01 } 1 (fun t => t.haltBug && !t.halted && t.pc == 0x0101) &&
      stepIs { base [0x3C] with ie := 0x01, ifr := 0x01, haltBug := true } 1 (fun t =>
        t.a == 0x01 && !t.haltBug && t.pc == 0x0100) &&
      stepIs { base [0x3E, 0x14] with ie := 0x01, ifr := 0x01, haltBug := true } 2 (fun t =>
        t.a == 0x3E && !t.haltBug && t.pc == 0x0101)) = true := by
  decide

/-- Y9, Y10, R285: STOP and the eleven illegal bytes fault after their own fetch, with the byte and its address. -/
theorem test_illegal_opcodes :
    ([0x10, 0xD3, 0xDB, 0xDD, 0xE3, 0xE4, 0xEB, 0xEC, 0xED, 0xF4, 0xFC, 0xFD].all fun op : Byte =>
      stepIs (base [op, 0x3C]) 1 (fun t =>
        t.faulted == some { kind := .illegalOpcode, op := some op, addr := 0x0100 } && t.pc == 0x0101)) = true := by
  decide

/-- R324: a faulted machine has no further step. -/
theorem test_faulted_machine_stops :
    step { State.reset with faulted := some { kind := .illegalOpcode, op := some 0xD3, addr := 0x0100 } } =
      .fault (.machineFaulted { kind := .illegalOpcode, op := some 0xD3, addr := 0x0100 }) := rfl

/-- S2, Y3, Y6, I1 to I3, I5, T6: dispatch, its priority, its masks, its push over IE, its M-cycles in the timer. -/
theorem test_dispatch :
    (stepIs { base [] with ime := true, ie := 0x1F, ifr := 0x1A } 5 (fun t =>
        t.pc == 0x0048 && t.ifr == 0x18 && t.sp == 0xCFFE && rd 0xCFFF t == 0x01 && rd 0xCFFE t == 0x00 && !t.ime) &&
      stepIs { base [0x00] with ime := true, ie := 0x04, ifr := 0x1B } 1 (fun t =>
        t.pc == 0x0101 && t.ifr == 0x1B && t.ime) &&
      stepIs { base [0x00] with ie := 0x1F, ifr := 0x1F } 1 (fun t => t.pc == 0x0101 && t.ifr == 0x1F) &&
      stepIs { base [] with ime := true, ie := 0x01, ifr := 0x01, pc := 0x1234, sp := 0x0001 } 5 (fun t =>
        t.sp == 0xFFFF && rd 0x0000 t == 0x12 && t.ie == 0x34 && t.ifr == 0x00 && t.pc == 0x0040 && !t.ime) &&
      stepIs { base [] with ime := true, ie := 0x01, ifr := 0x01, pc := 0x0102, eiDelay := true } 5 (fun t =>
        t.pc == 0x0040 && !t.ime && t.ifr == 0x00 && t.eiDelay && rd 0xCFFE t == 0x02) &&
      stepIs { base [] with ime := true, ie := 0x01, ifr := 0x01, pc := 0x0101, halted := true } 5 (fun t =>
        !t.halted && t.pc == 0x0040 && rd 0xCFFF t == 0x01 && rd 0xCFFE t == 0x01) &&
      stepIs { base [] with
          ime := true, ie := 0x04, ifr := 0x04, pc := 0x0102, tac := 5, tima := 0xAB, tma := 0xAB, counter := 0x0014 } 5 (fun t =>
        t.pc == 0x0050 && t.ifr == 0x00 && t.counter == 0x0028 && t.tima == 0xAC && rd 0xCFFE t == 0x02)) = true := by
  decide

/-- S9, S10, T1, T3 to T5, I6: the divider, the falling edge, the delayed reload, the writes in its window, the always-1 bits. -/
theorem test_timer_and_registers :
    (stepIs { base [0x00] with counter := 0xFFFC } 1 (fun t => t.counter == 0x0000) &&
      stepIs { base [0x00] with tac := 5, tima := 0xFF, tma := 0xAB, counter := 0x000C } 1 (fun t =>
        t.counter == 0x0010 && t.tima == 0x00 && t.reloadPending && t.ifr == 0x00) &&
      stepIs { base [0x00] with tac := 5, tma := 0xAB, counter := 0x0010, reloadPending := true } 1 (fun t =>
        t.counter == 0x0014 && t.tima == 0xAB && !t.reloadPending && t.ifr == 0x04) &&
      stepIs { base [0xF0, 0x05] with tac := 5, tima := 0xFF, tma := 0xAB, counter := 0x0008 } 3 (fun t =>
        t.a == 0x00 && t.tima == 0xAB && t.ifr == 0x04) &&
      stepIs { base [0xF0, 0x0F] with tac := 5, tima := 0xFF, tma := 0xAB, counter := 0x0008 } 3 (fun t => t.a == 0xE0) &&
      stepIs { base [0xE0, 0x05] with tac := 5, tima := 0xFF, tma := 0xAB, counter := 0x0008, a := 0x77 } 3 (fun t =>
        t.tima == 0xAB && t.ifr == 0x04) &&
      stepIs { base [0xE0, 0x06] with tac := 5, tima := 0xFF, tma := 0xAB, counter := 0x0008, a := 0x77 } 3 (fun t =>
        t.tma == 0x77 && t.tima == 0x77 && t.ifr == 0x04) &&
      stepIs { base [0xE0, 0x05] with tac := 5, tima := 0xFF, tma := 0xAB, counter := 0x0004, a := 0x77 } 3 (fun t =>
        t.tima == 0x78 && t.ifr == 0x00) &&
      stepIs { base [0xE0, 0x04] with tac := 5, tima := 0x10, counter := 0x0000, a := 0x55 } 3 (fun t =>
        t.tima == 0x11 && t.counter == 0x0004) &&
      stepIs { base [0xF0, 0x07] with tac := 0 } 3 (fun t => t.a == 0xF8)) = true := by
  decide

/-! ### What the obligations assume can be met

One theorem for each obligation with hypotheses, with a concrete state for each of its clauses. -/

/-- The outcome is a next state. -/
def isNext (o : Host.Outcome State Fault Refusal) : Bool :=
  match o with
  | .next _ => true
  | .fault _ => false
  | .refused _ => false

theorem exists_next {o : Host.Outcome State Fault Refusal} (h : isNext o = true) : ∃ t, o = .next t := by
  cases o with
  | next t => exact ⟨t, rfl⟩
  | fault r => cases h
  | refused r => cases h

/-- A machine whose window has a peripheral at 0xFF01, an obligation without a handler at 0xFF02, and both options the other
way round from the defaults. -/
def wired : State :=
  { base [] with
    cfg := { Params.config with
      mustHaveHandler := [0xFF02], selfJumpCheck := true, ieUpper := .dropped, accessPhase := .tickThenAccess }
    registry := coreRegistry Params.regAddr ++ [(0xFF01, .peripheral)] }

theorem witness_DecodeOfEncode : (Instr.rst 0x0038).WellFormed ∧ (Instr.pushQq .hl).WellFormed := by
  rw [← Instr.wellFormed_iff, ← Instr.wellFormed_iff]; decide

theorem witness_EncodeOfDecode : decode [0xCB, 0xFF, 0xAB] = .ok (.setBR 7 .a, [0xAB]) := by decide

theorem witness_FirstByteDecidesLength :
    operandCount 0xC3 ≤ [0x50#8, 0x01].length ∧ [0x50#8].length < operandCount 0xC3 ∧ operandCount 0x00 ≤ ([] : List Byte).length :=
  by decide

theorem reset_stateInv : StateInv State.reset := by
  constructor <;> decide

theorem witness_StepKeepsInvariant : StateInv State.reset ∧ ∃ t, step State.reset = .next t :=
  ⟨reset_stateInv, exists_next (by decide)⟩

theorem witness_StepKeepsConstruction : ∃ t, step wired = .next t := exists_next (by decide)

theorem witness_StepStopsOnlyWhenFaulted :
    (base []).faulted = none ∧
    ({ base [] with faulted := some { kind := .selfJump, op := some 0x18, addr := 0x0100 } } : State).faulted =
      some { kind := .selfJump, op := some 0x18, addr := 0x0100 } := by
  decide

theorem witness_CheckInterruptsPicksLeast :
    checkInterrupts { base [] with ie := 0xFF, ifr := 0x18 } = some .serial ∧
    checkInterrupts { base [] with ie := 0xE7, ifr := 0x18 } = none := by
  decide

theorem witness_RequestSetsOneBit : ({ base [] with ifr := 0x10 } : State).ifr.getLsbD Irq.joypad.num = true := by decide

/-- The least and the greatest source, awake and halted. -/
theorem witness_DispatchTakesInterrupt :
    (let s := { base [] with ime := true, ie := 0x01, ifr := 0x1F, halted := true }
     s.faulted = none ∧ s.ime = true ∧ checkInterrupts s = some .vblank) ∧
    (let s := { base [] with ime := true, ie := 0x10, ifr := 0x1F }
     s.faulted = none ∧ s.ime = true ∧ checkInterrupts s = some .joypad) := by
  decide

/-- The stack at 0xD000 and, wrapping, at 0x0001 minus 1 and 2 in plain memory needs `sp` of 2 or more: 0x0002 is the least. -/
theorem witness_DispatchStackAndFlag :
    [0xD000#16, 0x0002].all (fun sp =>
      let s := { base [] with ime := true, ie := 0x04, ifr := 0x04, sp := sp }
      s.faulted.isNone && s.ime && checkInterrupts s == some .timer && s.cfg.platform == .flat && !s.reloadPending &&
        !s.tac.getLsbD 2 && plainAt s (s.sp - 1) && plainAt s (s.sp - 2)) = true := by
  decide

theorem witness_HaltedStepIsOneTick :
    (let s := { base [] with ie := 0x0F, ifr := 0x10, halted := true }
     s.faulted = none ∧ s.halted = true ∧ pending s = 0) := by
  decide

/-- The hypotheses of the statements about a step from plain memory. -/
def runsPlain (s : State) (i : Instr) (n : Nat) : Bool :=
  s.faulted.isNone &&
  match stepEntry s with
  | .stepOver _ => false
  | .fetch u =>
    let next := if u.haltBug then u.pc else u.pc + 1
    decodesTo (u.flat.read u.pc :: bytesFrom u.flat next n) i && plainAt u u.pc &&
      (List.range n).all fun k => plainAt u (next + BitVec.ofNat 16 k)

/-- One, two and three bytes; with the halt bug; with the deferred enable; from the last address before the window; across it,
where the last operand byte lies at the first address after it. -/
theorem witness_StepRunsDecodedInstruction :
    (runsPlain (base [0x3C]) (.incR .a) 0 && runsPlain (base [0x3E, 0x14]) (.ldRN .a 0x14) 1 &&
      runsPlain (base [0xC3, 0x50, 0x01]) (.jpNn 0x0150) 2 &&
      runsPlain { base [0x3E, 0x14] with haltBug := true } (.ldRN .a 0x3E) 1 &&
      runsPlain { base [0xCB, 0x37] with eiDelay := true } (.swapR .a) 1 &&
      runsPlain { base [] with pc := 0xFEFF, flat := [(0xFEFF, 0x3C)] } (.incR .a) 0 &&
      runsPlain { base [] with pc := 0xFF80, flat := [(0xFF80, 0x3E), (0xFF81, 0x14)] } (.ldRN .a 0x14) 1) = true := by
  decide

theorem witness_StepEntryOrder :
    (let s := { base [] with ie := 0x01, ifr := 0x01, ime := true }
     checkInterrupts s = some .vblank ∧ s.ime = true) ∧
    (let s := { base [] with ie := 0x01, ifr := 0x01, halted := true }
     checkInterrupts s = some .vblank ∧ s.ime = false) ∧
    (let s := { base [] with halted := true }
     checkInterrupts s = none ∧ s.halted = true) ∧
    (checkInterrupts (base []) = none ∧ (base []).halted = false ∧ (base []).eiDelay = false) ∧
    ({ base [] with eiDelay := true } : State).eiDelay = true := by
  decide

theorem base_faultFreeWiring (bytes : List Byte) : FaultFreeWiring (base bytes) := ⟨rfl, rfl⟩

theorem witness_OnlyIllegalOpcodesFault :
    FaultFreeWiring (base [0xFD]) ∧ (base [0xFD]).faulted = none ∧ plainAt (base [0xFD]) (base [0xFD]).pc = true ∧
    stepIs (base [0xFD]) 1 (fun t => t.faulted == some { kind := .illegalOpcode, op := some 0xFD, addr := 0x0100 }) = true := by
  exact ⟨base_faultFreeWiring _, by decide, by decide, by decide⟩

theorem witness_IllegalOpcodesRaise : ((0x10, Instr.stop) : Byte × Instr) ∈ illegalTable := by decide

/-- Every shape of read: the page of LDH, (nn), (HL), (BC), the first byte of a pop, and its second byte, for a taken RET cc too;
with the order of the M-cycle that the last clause assumes. -/
theorem witness_UnhandledReadRaises :
    (let s := { wired with b := 0xFF, c := 0x02, h := 0xFF, l := 0x02, sp := 0xFF02, f := 0x80 }
     dataReads (.ldhAN 0x02) s = [] ++ 0xFF02 :: [] ∧ dataReads .ldhAC s = [] ++ 0xFF02 :: [] ∧
     dataReads (.ldANn 0xFF02) s = [] ++ 0xFF02 :: [] ∧ dataReads .addAHl s = [] ++ 0xFF02 :: [] ∧
     dataReads .ldABc s = [] ++ 0xFF02 :: [] ∧ dataReads .popAf s = [] ++ 0xFF02 :: [0xFF03] ∧ readable 0xFF02 s = false) ∧
    (let s := { wired with cfg := { wired.cfg with accessPhase := .accessThenTick }, sp := 0xFF01, f := 0x80 }
     dataReads .ret s = [0xFF01] ++ 0xFF02 :: [] ∧ dataReads (.retCc .z) s = [0xFF01] ++ 0xFF02 :: [] ∧
     readable 0xFF01 s = true ∧ readable 0xFF02 s = false ∧ s.cfg.accessPhase = .accessThenTick) := by
  decide

/-- The fetch clauses: the opcode in the hole; one operand byte in it; the second of two operand bytes in it. Opcodes at 0xFF00 and
0xFF01 come from `flat`. -/
theorem witness_UnhandledReadRaises_fetch :
    (let at_ (pc : Word) (m : Memory) : State :=
       { base [] with pc := pc, flat := m, cfg := { Params.config with mustHaveHandler := [0xFF02] } }
     (stepEntry (at_ 0xFF02 []) = .fetch (at_ 0xFF02 []) ∧ readable 0xFF02 (at_ 0xFF02 []) = false) ∧
     (∃ w, fetchOpcode (at_ 0xFF01 [(0xFF01, 0x3E)]) = .ok 0x3E w ∧ 0 < operandCount 0x3E ∧
       readable (w.pc + BitVec.ofNat 16 0) w = false) ∧
     ∃ w, fetchOpcode (at_ 0xFF00 [(0xFF00, 0xC3)]) = .ok 0xC3 w ∧ 1 < operandCount 0xC3 ∧
       readable (w.pc + BitVec.ofNat 16 0) w = true ∧ readable (w.pc + BitVec.ofNat 16 1) w = false) :=
  ⟨by decide, ⟨_, rfl, by decide, by decide⟩, ⟨_, rfl, by decide, by decide, by decide⟩⟩

/-- JP and JR to their own address, taken and conditional, after the fetch of 3 and of 2 bytes; at the wrap of `pc` too. -/
theorem witness_SelfJumpRaises :
    (let s := { wired with opaddr := 0x0100, pc := 0x0102 }
     s.cfg.selfJumpCheck = true ∧ (0x0100#16 = s.opaddr) ∧ s.pc + sext16 0xFE = s.opaddr ∧ s.cond .nz = true) ∧
    (let s := { wired with opaddr := 0xFFFF, pc := 0x0001 }
     s.pc + sext16 0xFE = s.opaddr) := by
  decide

/-- The edges of the window, and every kind of holder inside it. -/
theorem witness_BusRoutes :
    (let s := wired
     (inWindow s.cfg 0xFEFF = false ∧ inWindow s.cfg 0xFF00 = true ∧ inWindow s.cfg 0xFF7F = true ∧
       inWindow s.cfg 0xFF80 = false ∧ inWindow s.cfg 0xFFFE = false ∧ inWindow s.cfg 0xFFFF = true) ∧
     s.registry.lookup 0xFFFF = some (.core .ie) ∧ s.registry.lookup 0xFF01 = some .peripheral ∧
     (s.registry.lookup 0xFF02 = none ∧ s.cfg.mustHaveHandler.contains 0xFF02 = true) ∧
     (s.registry.lookup 0xFF7F = none ∧ s.cfg.mustHaveHandler.contains 0xFF7F = false)) := by
  decide

theorem witness_CoreRegisters :
    (let s := base []
     [0xFF04#16, 0xFF05, 0xFF06, 0xFF07, 0xFF0F, 0xFFFF].all (inWindow s.cfg) = true ∧
     s.registry.lookup 0xFF04 = some (.core .div) ∧ s.registry.lookup 0xFF05 = some (.core .tima) ∧
     s.registry.lookup 0xFF06 = some (.core .tma) ∧ s.registry.lookup 0xFF07 = some (.core .tac) ∧
     s.registry.lookup 0xFF0F = some (.core .ifr) ∧ s.registry.lookup 0xFFFF = some (.core .ie) ∧
     s.cfg.ieUpper = .stored ∧ wired.cfg.ieUpper = .dropped) := by
  decide

theorem witness_AlwaysOneBits :
    inWindow (base []).cfg 0xFF07 = true ∧ (base []).registry.lookup 0xFF07 = some (.core .tac) ∧
    inWindow (base []).cfg 0xFF0F = true ∧ (base []).registry.lookup 0xFF0F = some (.core .ifr) := by
  decide

/-- Below the window, in an unhandled place of it, and above it; the same address and another. -/
theorem witness_ReadAfterWrite :
    (base []).flat.wf = true ∧ plainAt (base []) 0xFEFF = true ∧ plainAt (base []) 0xFF7F = true ∧
    plainAt (base []) 0xFFFE = true ∧ plainAt (base []) 0x0000 = true ∧ plainAt wired 0xFF02 = false := by
  decide

/-- Both orders, with an access that answers. -/
theorem witness_AccessPhase :
    ((base []).cfg.accessPhase = .accessThenTick ∧ ∃ x u, busRead 0x0100 (base []) = .ok x u) ∧
    wired.cfg.accessPhase = .tickThenAccess :=
  ⟨⟨rfl, _, _, rfl⟩, rfl⟩

theorem witness_PopAfterPush :
    (base []).flat.wf = true ∧ plainAt (base []) ((base []).sp - 1) = true ∧ plainAt (base []) ((base []).sp - 2) = true := by
  decide

theorem witness_TimaCountsAndWraps :
    (base []).tima ≠ 0xFF ∧ ({ base [] with tima := 0xFF } : State).tima = 0xFF ∧ (base []).tac.getLsbD 2 = false := by
  decide

/-- The edge, the timer off, the selected bit 0. -/
theorem witness_DivWriteResetsDivider :
    inWindow (base []).cfg 0xFF04 = true ∧ (base []).registry.lookup 0xFF04 = some (.core .div) ∧
    (let s := { base [] with tac := 5, counter := 0x0008 }
     s.tac.getLsbD 2 = true ∧ s.counter.getLsbD (tacSelectedBit s) = true) ∧
    (base []).tac.getLsbD 2 = false ∧ (base []).counter.getLsbD (tacSelectedBit (base [])) = false := by
  decide

/-- All four clock selects. -/
theorem witness_TimerRates :
    [4#3, 5, 6, 7].all (fun tac =>
      let s := { base [] with tac := tac, tima := 0xFE }
      decide (s.cfg.tacBit = Params.tacBit) && s.tac.getLsbD 2 && !s.reloadPending && s.tima != 0xFF) = true := by
  decide

/-- What the statements of instructions on the byte at HL, BC, DE or an immediate address assume, for plain memory, for the
window and, where the construction has obligations, beside them. -/
theorem witness_readable :
    readable (base []).hl (base []) = true ∧ readable (base []).bc (base []) = true ∧ readable (base []).de (base []) = true ∧
    readable 0xFFFF (base []) = true ∧ readable 0xFF02 (base []) = true ∧ readable 0xFF01 wired = true := by
  decide

theorem witness_AddAdcResults : readable (base []).hl (base []) = true := by decide
theorem witness_SubSbcResults : readable (base []).hl (base []) = true := by decide
theorem witness_CompareResults : readable (base []).hl (base []) = true := by decide
theorem witness_LogicResults : readable (base []).hl (base []) = true := by decide
theorem witness_IncDecResults : readable (base []).hl (base []) = true := by decide

/-- The least and the greatest BCD codes. -/
theorem witness_DaaMakesBcdSum :
    ({ base [] with a := 0x99 } : State).a = BitVec.ofNat 8 (99 / 10 * 16 + 99 % 10) ∧
    (base []).a = BitVec.ofNat 8 (0 / 10 * 16 + 0 % 10) ∧ 0 < 100 ∧ 99 < 100 := by
  decide

theorem witness_RegisterLoads :
    (let s := { base [] with c := 0xFF }
     readable s.hl s = true ∧ readable s.bc s = true ∧ readable s.de s = true ∧ readable 0xD234 s = true ∧
     (0xFFFF#16).toNat = 0xFF00 + s.c.toNat ∧ readable 0xFFFF s = true) ∧
    (0xFF00#16).toNat = 0xFF00 + (0x00#8).toNat ∧ readable 0xFF00 (base []) = true := by
  decide

theorem witness_ByteStores :
    (0xFFFF#16).toNat = 0xFF00 + ({ base [] with c := 0xFF } : State).c.toNat ∧
    (0xFF00#16).toNat = 0xFF00 + (0x00#8).toNat := by
  decide

/-- The stack in plain memory, and across the wrap at 0xFFFF. -/
theorem witness_PopResults :
    poppable (base []) = true ∧ poppable { base [] with sp := 0xFFFF } = true := by
  decide

/-- PUSH AF with all of F set, and PUSH BC whose low byte has a low nibble. -/
theorem witness_PopAfLowNibbleZero :
    (∃ u, exec .pushAf { base [] with f := 0xF0 } = .next u ∧ ∃ t, exec .popAf u = .next t ∧ t.faulted = none) ∧
    ∃ u, exec (.pushQq .bc) { base [] with c := 0x0F } = .next u ∧ ∃ t, exec .popAf u = .next t ∧ t.faulted = none :=
  ⟨⟨_, rfl, _, rfl, rfl⟩, ⟨_, rfl, _, rfl, rfl⟩⟩

theorem witness_RotatesAndShifts :
    rotTable.length = 8 ∧ (∀ row ∈ rotTable.take 1, row ∈ rotTable) ∧ readable (base []).hl (base []) = true :=
  ⟨rfl, fun _ h => List.mem_of_mem_take h, by decide⟩

theorem witness_BitInstructions : readable (base []).hl (base []) = true := by decide

/-- Taken and not taken; the check off; the check on with another target; the displacements -128 and +127. -/
theorem witness_JumpResults :
    (base []).cond .z = false ∧ (base []).cond .nz = true ∧ (base []).cfg.selfJumpCheck = false ∧
    (wired.cfg.selfJumpCheck = true ∧ 0x0150#16 ≠ wired.opaddr) ∧
    ((0x0080#16).toNat : Int) = (((base []).pc.toNat : Int) + (0x80#8).toInt) % 65536 ∧
    ((0x017F#16).toNat : Int) = (((base []).pc.toNat : Int) + (0x7F#8).toInt) % 65536 := by
  decide

theorem witness_CallResults :
    (base []).cond .nc = true ∧ (base []).cond .c = false := by
  decide

theorem witness_ReturnResults :
    poppable (base []) = true ∧ (base []).cond .nz = true ∧ (base []).cond .z = false := by
  decide

/-- HALT: with the bug; halting because IME is set; halting because nothing is pending. -/
theorem witness_SystemInstructions :
    (let s := { base [] with ie := 0x10, ifr := 0x10 }
     s.ime = false ∧ s.ie.setWidth 5 &&& s.ifr ≠ 0) ∧
    ({ base [] with ie := 0x10, ifr := 0x10, ime := true } : State).ime = true ∧
    (base []).ie.setWidth 5 &&& (base []).ifr = 0 := by
  decide

theorem witness_InterruptStateWriters :
    (∃ t, exec (.jpNn 0x0150) (base []) = .next t) ∧ Instr.jpNn 0x0150 ≠ .di ∧ Instr.jpNn 0x0150 ≠ .reti ∧
    Instr.jpNn 0x0150 ≠ .ei ∧ Instr.jpNn 0x0150 ≠ .halt :=
  ⟨⟨_, rfl⟩, by decide⟩

theorem witness_NonStoresKeepMemory :
    (∃ t, exec (.callCcNn .z 0x0150) (base []) = .next t) ∧ writesBus (.callCcNn .z 0x0150) (base []) = false :=
  ⟨⟨_, rfl⟩, by decide⟩

/-- A conditional call taken and not taken, and a read-modify-write of the CB page. -/
theorem witness_StepTiming :
    (runsPlain { base [0xCC, 0x34, 0x12] with f := 0x80 } (.callCcNn .z 0x1234) 2 &&
      runsPlain (base [0xCC, 0x34, 0x12]) (.callCcNn .z 0x1234) 2 && runsPlain (base [0xCB, 0x36]) .swapHl 1 &&
      stepIs { base [0xCC, 0x34, 0x12] with f := 0x80 } 6 (fun t => t.faulted.isNone) &&
      stepIs (base [0xCC, 0x34, 0x12]) 3 (fun t => t.faulted.isNone) &&
      stepIs (base [0xCB, 0x36]) 4 (fun t => t.faulted.isNone)) = true := by
  decide

theorem witness_CyclesAreUnreadable : ∃ t, step (base [0xF0, 0x05]) = .next t := exists_next (by decide)

/-- Two states that differ in all that the statement lets differ; a pop, and plain one-byte reads just below CORE registers. -/
theorem witness_TimerDoesNotLeak :
    (let s := base []
     let s' := { base [] with
       counter := 0x1234, tima := 0x55, tma := 0x66, tac := 5, reloadPending := true, ie := 0x01, ifr := 0x10, cycles := 99 }
     s.cpu = s'.cpu ∧ s.flat = s'.flat ∧ s.env = s'.env ∧ s'.cfg = s.cfg ∧ s'.registry = s.registry ∧
     pending s = pending s' ∧ dataReads .popAf s = [0xD000, 0xD001] ∧ plainAt s 0xD000 = true ∧ plainAt s 0xD001 = true ∧
     isNext (exec .popAf s) = true ∧ isNext (exec .popAf s') = true ∧
     [0xFFFE#16, 0xFF03, 0xFF0E].all (fun a =>
       dataReads (.ldANn a) s == [a] && plainAt s a && isNext (exec (.ldANn a) s) && isNext (exec (.ldANn a) s')) = true) := by
  decide

theorem witness_SnapshotRoundTrip :
    (∃ p, save (base []) = some p) ∧ SameConstruction (base []) { base [] with pc := 0x1234, cycles := 8 } :=
  ⟨⟨_, rfl⟩, rfl, rfl⟩

theorem witness_OneHandlerPerAddress :
    (coreRegistry Params.regAddr).lookup 0xFF07 = some (.core .tac) ∧
    (∃ r, attachAll (coreRegistry Params.regAddr) [(0xFF01, .peripheral), (0xFF00, .peripheral)] = some r) ∧
    0xFF07#16 ∈ [0xFF04#16, 0xFF05, 0xFF06, 0xFF07, 0xFF0F, 0xFFFF] ∧ 0xFF07#16 ∈ [0xFF40#16, 0xFF07] :=
  ⟨by decide, ⟨_, rfl⟩, by decide, by decide⟩

end Sys2Proof.Tests
end

section
/-! PROOFS. What an instruction and a step can do to the interrupt and power-state bits, said once, and the invariants that follow
(spec/10_state.md R29 to R35, R41, R48). -/

namespace Sys2Proof.Machine

/-! ### What an instruction can do -/

/-- The ways an instruction can end: with a change that is sound, or as one of the four instructions that write the interrupt and
power-state bits (R270, R281, R283, R284). -/
inductive ExecEffect (s : State) : Instr → State → Prop
  | sound {i : Instr} {t : State} (h : Sound s t) : ExecEffect s i t
  | di : ExecEffect s .di { s with ime := false }
  | ei : ExecEffect s .ei { s with eiDelay := true }
  | haltBug (hime : s.ime = false) : ExecEffect s .halt { s with haltBug := true }
  | halted : ExecEffect s .halt { s with halted := true }
  | reti {u : State} (h : Sound s u) : ExecEffect s .reti { u with ime := true }

theorem execHalt_effect {s t : State} (h : exec .halt s = .next t) : ExecEffect s .halt t := by
  change (if (!s.ime && pending s != 0) = true then _ else _) = _ at h
  split at h
  · next hb =>
    cases next_inj h
    simp only [Bool.and_eq_true, Bool.not_eq_true'] at hb
    exact .haltBug hb.1
  · cases next_inj h
    exact .halted

/-- RETI ends soundly where its pop raised, else with IME set (R270). -/
theorem execReti_effect {s t : State} (h : exec .reti s = .next t) : ExecEffect s .reti t := by
  have hp := within_pop16 s
  change (pop16 s).finish _ = _ at h
  cases hx : pop16 s with
  | raised u =>
    rw [hx] at h hp
    cases h
    exact .sound hp
  | ok v u =>
    rw [hx] at h hp
    cases h
    have hjump : Sound u (tick { u with pc := v }) :=
      (sound_regs u u.a u.f u.b u.c u.d u.e u.h u.l u.sp v u.faulted id).trans (sound_tick _)
    exact .reti (Sound.trans hp hjump)

theorem exec_effect {i : Instr} {s t : State} (h : exec i s = .next t) : ExecEffect s i t := by
  cases i
  case di => cases next_inj h; exact .di
  case ei => cases next_inj h; exact .ei
  case halt => exact execHalt_effect h
  case reti => exact execReti_effect h
  all_goals exact .sound (exec_sound s rfl h)

/-! ### What a step can do -/

/-- The state in which a step reads the opcode: HALT has ended, the deferred enable is done, and it is noted where the opcode is
fetched from (R101, R302, R304). -/
def State.fetchStart (s : State) : State :=
  { s with halted := false, ime := s.ime || s.eiDelay, eiDelay := false, curOp := none, opaddr := s.pc }

/-- The state after the opcode fetch has read `op`: the halt bug is spent (R101). -/
def State.fetched (m : State) (op : Byte) (pc : Word) : State := { m with curOp := some op, pc := pc, haltBug := false }

/-- The ways a step can end (R300): taking an interrupt, a halted tick, a read that raised in the fetch, an executed
instruction. -/
inductive StepEffect (s : State) : State → Prop
  | dispatched (irq : Irq) (hime : s.ime = true) : StepEffect s (dispatch irq { s with halted := false })
  | waited : StepEffect s (tick s)
  | opcodeRaised {t : State} (h : Sound s.fetchStart t) : StepEffect s t
  | operandRaised {m t : State} {op : Byte} {pc : Word} (hm : Sound s.fetchStart m) (h : Sound (m.fetched op pc) t) :
      StepEffect s t
  | executed {m w t : State} {op : Byte} {pc : Word} {i : Instr} (hm : Sound s.fetchStart m)
      (hw : Sound (m.fetched op pc) w) (h : exec i w = .next t) : StepEffect s t

theorem step_effect {s t : State} (h : step s = .next t) : StepEffect s t := by
  obtain ⟨-, hover | ⟨u, hfetch, hrun⟩⟩ := step_cases s h
  · rcases stepEntry_cases s with ⟨irq, -, hime, he⟩ | ⟨-, -, he⟩ | he
    all_goals rw [he] at hover; cases hover
    · exact .dispatched irq hime
    · exact .waited
  · rcases stepEntry_cases s with ⟨_, -, -, he⟩ | ⟨-, -, he⟩ | he
    all_goals rw [he] at hfetch; cases hfetch
    rcases fetchInstr_cases { s with halted := false, ime := s.ime || s.eiDelay, eiDelay := false } with
      ⟨op, m, ⟨-, hm, -⟩, hw⟩ | ⟨m, hr, hm, -⟩
    · rcases hrun with hr | ⟨i, w, hr, hexec⟩ <;> rw [hr] at hw
      · exact .operandRaised hm.sound hw
      · exact .executed hm.sound hw hexec
    · rcases hrun with hr' | ⟨i, w, hr', -⟩ <;> rw [hr] at hr' <;> cases hr'
      exact .opcodeRaised hm

/-! ### The invariant through the parts of a step -/

variable {s t : State}

/-- What a sound change leaves alone is all that the invariant speaks of. -/
theorem StateInv.of_sound (hs : StateInv s) (h : Sound s t) : StateInv t where
  flagsLow := h.low hs.flagsLow
  haltedAlone := by rw [h.halted, h.haltBug, h.eiDelay]; exact hs.haltedAlone
  haltBugMasked := by rw [h.haltBug, h.ime, h.eiDelay]; exact hs.haltBugMasked
  counterAligned := h.aligned hs.counterAligned
  flatCanonical := h.wf hs.flatCanonical

/-- Ending HALT with the deferred enable keeps the invariant: where the halt bug is pending, neither IME nor the EI delay is set,
so that IME stays clear. -/
theorem StateInv.fetchStart (hs : StateInv s) : StateInv s.fetchStart :=
  { hs with
    haltedAlone := by simp [State.fetchStart]
    haltBugMasked := fun h => by
      obtain ⟨hime, hdelay⟩ := hs.haltBugMasked h
      simp [State.fetchStart, hime, hdelay] }

/-- Taking an interrupt keeps the invariant: IME, set until then, rules the halt bug out. -/
theorem StateInv.dispatch (hs : StateInv s) (irq : Irq) (hime : s.ime = true) :
    StateInv (dispatch irq { s with halted := false }) where
  flagsLow := by rw [dispatch_frame]; exact hs.flagsLow
  haltedAlone := by rw [dispatch_frame]; simp
  haltBugMasked := fun h => by
    rw [dispatch_frame] at h
    exact absurd (hime.symm.trans (hs.haltBugMasked h).1) (by decide)
  counterAligned := dispatch_aligned _ irq hs.counterAligned
  flatCanonical := dispatch_wf _ irq hs.flatCanonical

/-- The state in which an instruction executes: the CPU is not halted, and neither the halt bug nor an EI delay is pending. This
is what the invariant needs of a state so that DI, EI, HALT and RETI keep it. -/
structure Executing (s : State) : Prop where
  inv : StateInv s
  running : s.halted = false
  noHaltBug : s.haltBug = false
  noDelay : s.eiDelay = false

theorem Executing.of_sound (hs : Executing s) (h : Sound s t) : Executing t where
  inv := hs.inv.of_sound h
  running := h.halted.trans hs.running
  noHaltBug := h.haltBug.trans hs.noHaltBug
  noDelay := h.eiDelay.trans hs.noDelay

/-- With the three bits of HALT and EI clear, the invariant says nothing of IME. -/
theorem Executing.setIme (hs : Executing s) (b : Bool) : StateInv { s with ime := b } :=
  { hs.inv with haltBugMasked := by simp [hs.noHaltBug] }

theorem StateInv.fetched {m : State} (hs : StateInv s) (hm : Sound s.fetchStart m) (op : Byte) (pc : Word) :
    Executing (m.fetched op pc) where
  inv :=
    { hs.fetchStart.of_sound hm with
      haltedAlone := by simp [State.fetched, hm.halted, State.fetchStart]
      haltBugMasked := by simp [State.fetched] }
  running := hm.halted
  noHaltBug := rfl
  noDelay := hm.eiDelay

theorem Executing.exec {i : Instr} (hs : Executing s) (h : exec i s = .next t) : StateInv t := by
  cases exec_effect h with
  | sound hst => exact hs.inv.of_sound hst
  | di => exact hs.setIme false
  | ei => exact { hs.inv with haltedAlone := by simp [hs.running], haltBugMasked := by simp [hs.noHaltBug] }
  | haltBug hime => exact { hs.inv with haltedAlone := by simp [hs.running], haltBugMasked := fun _ => ⟨hime, hs.noDelay⟩ }
  | halted => exact { hs.inv with haltedAlone := fun _ => ⟨hs.noHaltBug, hs.noDelay⟩ }
  | reti hsu => exact (hs.of_sound hsu).setIme true

/-- Settles O7: each way a step can end keeps the invariant; between the fetch and the execution the stronger `Executing` holds. -/
theorem stepKeepsInvariant : Obligations.StepKeepsInvariant := by
  intro s t hs h
  cases step_effect h with
  | dispatched irq hime => exact hs.dispatch irq hime
  | waited => exact hs.of_sound (sound_tick s)
  | opcodeRaised hst => exact hs.fetchStart.of_sound hst
  | operandRaised hm hmt => exact ((hs.fetched hm _ _).of_sound hmt).inv
  | executed hm hw hexec => exact ((hs.fetched hm _ _).of_sound hw).exec hexec

/-! ### What construction fixed -/

theorem SameConstruction.trans {u : State} (p : SameConstruction s t) (q : SameConstruction t u) : SameConstruction s u :=
  ⟨q.1.trans p.1, q.2.trans p.2⟩

theorem Sound.sameConstruction (h : Sound s t) : SameConstruction s t := ⟨h.cfg, h.registry⟩

theorem exec_sameConstruction {i : Instr} (h : exec i s = .next t) : SameConstruction s t := by
  cases exec_effect h with
  | sound hst => exact hst.sameConstruction
  | di | ei | haltBug | halted => exact ⟨rfl, rfl⟩
  | reti hsu => exact hsu.sameConstruction

/-- Settles O8: the fetch and the execution are sound or write interrupt and power-state bits only, and the frame of `dispatch`
leaves the construction alone. -/
theorem stepKeepsConstruction : Obligations.StepKeepsConstruction := by
  intro s t h
  cases step_effect h with
  | dispatched irq => exact ⟨by rw [dispatch_frame], by rw [dispatch_frame]⟩
  | waited => exact (sound_tick s).sameConstruction
  | opcodeRaised hst => exact hst.sameConstruction
  | operandRaised hm hmt => exact hm.sameConstruction.trans hmt.sameConstruction
  | executed hm hw hexec => exact (hm.sameConstruction.trans hw.sameConstruction).trans (exec_sameConstruction hexec)

/-! ### Who writes the interrupt and power-state bits -/

/-- Settles O54: an instruction that is not sound is one of the four, and writes the bit the statement excepts. -/
theorem interruptStateWriters : Obligations.InterruptStateWriters := by
  intro i s t h
  cases exec_effect h with
  | sound hst => exact ⟨fun _ _ => hst.ime, fun _ => hst.eiDelay, fun _ => ⟨hst.halted, hst.haltBug⟩⟩
  | di => exact ⟨fun hi => absurd rfl hi, fun _ => rfl, fun _ => ⟨rfl, rfl⟩⟩
  | ei => exact ⟨fun _ _ => rfl, fun hi => absurd rfl hi, fun _ => ⟨rfl, rfl⟩⟩
  | haltBug | halted => exact ⟨fun _ _ => rfl, fun _ => rfl, fun hi => absurd rfl hi⟩
  | reti hsu => exact ⟨fun _ hi => absurd rfl hi, fun _ => hsu.eiDelay, fun _ => ⟨hsu.halted, hsu.haltBug⟩⟩

/-! ### Reset -/

/-- Settles O5: construction computes the reset state, field by field. -/
theorem resetIsPowerOn : Obligations.ResetIsPowerOn := by
  unfold Obligations.ResetIsPowerOn
  decide

/-- F starts at 0xB0 and the divider at 0xABCC, a multiple of 4 (R362). -/
theorem postBootDmg_stateInv (cfg : Config) (registry : List (Word × Handler)) (env : Nat) :
    StateInv (State.ofProfile Params.postBootDmg cfg registry [] env) where
  flagsLow := show (0xB0 : Byte) &&& 0x0F = 0 by decide
  haltedAlone := nofun
  haltBugMasked := nofun
  counterAligned := show (0xABCC : Word).toNat % 4 = 0 by decide
  flatCanonical := Memory.wf_nil

theorem reset_stateInv : StateInv State.reset where
  flagsLow := rfl
  haltedAlone := nofun
  haltBugMasked := nofun
  counterAligned := rfl
  flatCanonical := Memory.wf_nil

/-- Settles O6: the values of each reset table meet the invariant, whatever the machine is built with. -/
theorem resetMeetsInvariant : Obligations.ResetMeetsInvariant := ⟨reset_stateInv, postBootDmg_stateInv⟩

/-! ### POP AF -/

theorem State.setAf_lowNibble (s : State) (v : Word) : (s.setAf v).f &&& 0x0F = 0 := by
  rw [State.setAf_f, BitVec.and_assoc]
  simp

/-- POP AF that raised no fault has written F masked (R169). -/
theorem execPopAf_lowNibble (h : exec .popAf s = .next t) (hf : t.faulted = none) : t.f &&& 0x0F = 0 := by
  change (pop16 s).finish _ = _ at h
  rcases pop16_cases s with ⟨v, u, hp, -⟩ | ⟨u, a, hp, hu⟩ <;> rw [hp] at h <;> cases h
  · exact u.setAf_lowNibble v
  · rw [hu] at hf
    cases hf

/-- Settles O44: POP AF masks F whatever the stack holds, so what was pushed before it has no part. -/
theorem popAfLowNibbleZero : Obligations.PopAfLowNibbleZero :=
  fun _ _ _ _ _ _ hpop hf => execPopAf_lowNibble hpop hf

end Sys2Proof.Machine
end

section
/-! PROOFS. An instruction that makes no write M-cycle leaves IE, TMA, TAC and `flat` alone (spec/10_state.md R30, R38, R39, R42). -/

namespace Sys2Proof.Machine

/-- What nothing but a bus write changes: memory, IE, TMA and TAC. -/
def State.busWritten (s : State) : Memory × Byte × Byte × BitVec 3 := (s.flat, s.ie, s.tma, s.tac)

theorem OnlyTime.busWritten {n : Nat} {s t : State} (h : OnlyTime n s t) : t.busWritten = s.busWritten := by
  simp only [State.busWritten, h.flat, h.ie, h.tma, h.tac]

variable (s : State)

@[simp] theorem busWritten_tick : (tick s).busWritten = s.busWritten := (onlyTime_tick s).busWritten

@[simp] theorem busWritten_setR8 (r : Reg8) (v : Byte) : (s.setR8 r v).busWritten = s.busWritten := by cases r <;> rfl

@[simp] theorem busWritten_setR8Alu (r : Reg8) (o : AluOut) : (s.setR8Alu r o).busWritten = s.busWritten := by
  cases r <;> rfl

@[simp] theorem busWritten_setR16 (rr : Reg16) (v : Word) : (s.setR16 rr v).busWritten = s.busWritten := by
  cases rr <;> rfl

@[simp] theorem busWritten_setStk (qq : RegStk) (v : Word) : (s.setStk qq v).busWritten = s.busWritten := by
  cases qq <;> rfl

@[simp] theorem busWritten_jumpTo (target : Word) : (jumpTo target s).busWritten = s.busWritten := by
  unfold jumpTo
  split
  · rfl
  · exact busWritten_tick { s with pc := target }

/-- A read that raises has let at most one tick pass. -/
theorem memRead_busWritten (a : Word) : (memRead a s).Within fun u => u.busWritten = s.busWritten := by
  rcases memRead_cases s a with ⟨-, v, u, he, hu⟩ | ⟨-, he⟩ <;> rw [he]
  · exact OnlyTime.busWritten (n := 1) hu
  · cases s.cfg.accessPhase
    · exact rfl
    · exact busWritten_tick s

theorem pop16_busWritten : (pop16 s).Within fun u => u.busWritten = s.busWritten := by
  rcases pop16_cases s with ⟨v, u, he, hp⟩ | ⟨u, a, he, hu⟩ <;> rw [he]
  · exact hp.frame.busWritten
  · show u.busWritten = s.busWritten
    rw [hu]
    rfl

variable {s} {t : State}

/-- A meaning that ends in `finish` writes nothing if its last statements do not. -/
theorem finish_busWritten {α : Type} {x : Flow α} {k : α → State → State} (h : x.finish k = .next t)
    (hx : x.Within fun u => u.busWritten = s.busWritten) (hk : ∀ v u, (k v u).busWritten = u.busWritten) :
    t.busWritten = s.busWritten := by
  cases x with
  | ok v u => cases h; exact (hk v u).trans hx
  | raised u => cases h; exact hx

theorem doReturn_busWritten (h : doReturn s = .next t) : t.busWritten = s.busWritten :=
  finish_busWritten h (pop16_busWritten s) fun v u => busWritten_tick { u with pc := v }

/-- A conditional transfer writes nothing where its taken branch does not. -/
theorem ite_busWritten {c : Bool} {x : State} (h : (if c = true then .next x else .next s : Result) = .next t)
    (hx : c = true → x.busWritten = s.busWritten) : t.busWritten = s.busWritten := by
  cases c with
  | false => cases h; rfl
  | true => cases h; exact hx rfl

/-- The instructions by what they do: write the bus, transfer control, pop, read a byte, or work on registers alone. -/
theorem exec_busWritten {i : Instr} (h : exec i s = .next t) (hi : writesBus i s = false) : t.busWritten = s.busWritten := by
  cases i
  case ldNnSp | ldBcA | ldDeA | ldHliA | ldHldA | ldHlN | ldHlR | ldhNA | ldhCA | ldNnA | incHl | decHl | rlcHl | rrcHl
      | rlHl | rrHl | slaHl | sraHl | swapHl | srlHl | resBHl | setBHl | pushQq | pushAf | callNn | rst => cases hi
  case callCcNn cc nn => exact ite_busWritten h fun hc => absurd (hc.symm.trans hi) (by decide)
  case jpCcNn cc nn => exact ite_busWritten h fun _ => busWritten_jumpTo s nn
  case jrCcE cc e => exact ite_busWritten h fun _ => busWritten_jumpTo s _
  case jpNn | jrE => cases next_inj h; exact busWritten_jumpTo s _
  case retCc cc =>
    change (if (tick s).cond cc = true then doReturn (tick s) else .next (tick s)) = _ at h
    split at h
    · exact (doReturn_busWritten h).trans (busWritten_tick s)
    · cases next_inj h; exact busWritten_tick s
  case ret => exact doReturn_busWritten h
  case reti => exact finish_busWritten h (pop16_busWritten s) fun v u => busWritten_tick { u with pc := v }
  case popQq qq => exact finish_busWritten h (pop16_busWritten s) fun v u => busWritten_setStk u qq v
  case popAf => exact finish_busWritten h (pop16_busWritten s) fun _ _ => rfl
  case ldRHl r => exact finish_busWritten h (memRead_busWritten s _) fun v u => busWritten_setR8 u r v
  case ldABc | ldADe | ldANn | ldhAC | ldhAN | ldAHli | ldAHld | addAHl | adcAHl | subHl | sbcAHl | andHl | xorHl | orHl
      | cpHl | bitBHl => exact finish_busWritten h (memRead_busWritten s _) fun _ _ => rfl
  case halt =>
    change (if _ then _ else _) = _ at h
    split at h <;> cases next_inj h <;> rfl
  case ldRR | ldRN | resBR | setBR => cases next_inj h; exact busWritten_setR8 s _ _
  case ldRrNn => cases next_inj h; exact busWritten_setR16 s _ _
  case incRr | decRr => cases next_inj h; exact (busWritten_tick _).trans (busWritten_setR16 s _ _)
  case incR | decR | rlcR | rrcR | rlR | rrR | slaR | sraR | swapR | srlR =>
    cases next_inj h; exact busWritten_setR8Alu s _ _
  case addHlRr | ldSpHl | ldHlSpE => cases next_inj h; exact busWritten_tick _
  case addSpE => cases next_inj h; exact (busWritten_tick _).trans (busWritten_tick _)
  all_goals cases next_inj h; rfl

/-- Settles O55: reads, pops and internal M-cycles change none of what a bus write changes. -/
theorem nonStoresKeepMemory : Obligations.NonStoresKeepMemory := by
  intro i s t h hi
  simpa only [State.busWritten, Prod.mk.injEq] using exec_busWritten h hi

end Sys2Proof.Machine
end

section
/-! PROOFS. The count of T-cycles is unreadable (spec/10_state.md R45, spec/60_exceptions.md R351): every operation commutes with
`State.later`, the same machine with a larger count. -/

namespace Sys2Proof.Machine

/-- The same machine, `k` T-cycles further on in its count. -/
def State.later (s : State) (k : Nat) : State := { s with cycles := s.cycles + k }

@[simp] theorem State.later_cfg (s : State) (k : Nat) : (s.later k).cfg = s.cfg := rfl

@[simp] theorem State.later_registry (s : State) (k : Nat) : (s.later k).registry = s.registry := rfl

/-- The same answer with the larger count. -/
def Flow.later {α : Type} (x : Flow α) (k : Nat) : Flow α :=
  match x with
  | .ok v s => .ok v (s.later k)
  | .raised s => .raised (s.later k)

def Entry.later (x : Entry) (k : Nat) : Entry :=
  match x with
  | .stepOver s => .stepOver (s.later k)
  | .fetch s => .fetch (s.later k)

def laterResult (x : Result) (k : Nat) : Result :=
  match x with
  | .next s => .next (s.later k)
  | .fault r => .fault r
  | .refused r => .refused r

/-! ### Flows -/

section
variable {α β : Type} (x : Flow α) (n : Nat)

theorem Flow.bind_later {k : α → State → Flow β} (hk : ∀ v s, k v (s.later n) = (k v s).later n) :
    (x.later n).bind k = (x.bind k).later n := by
  cases x with
  | ok v s => exact hk v s
  | raised s => rfl

theorem Flow.map_later {k : α → State → β × State} (hk : ∀ v s, k v (s.later n) = ((k v s).1, (k v s).2.later n)) :
    (x.later n).map k = (x.map k).later n := by
  cases x with
  | ok v s => simp only [Flow.later, Flow.map_ok, hk]
  | raised s => rfl

theorem Flow.finish_later {k : α → State → State} (hk : ∀ v s, k v (s.later n) = (k v s).later n) :
    (x.later n).finish k = laterResult (x.finish k) n := by
  cases x with
  | ok v s => exact congrArg _ (hk v s)
  | raised s => rfl

end

variable (s : State) (k : Nat)

/-! ### The timer -/

theorem timerEdge_later (old new : Word) : timerEdge old new (s.later k) = (timerEdge old new s).later k := by
  unfold timerEdge
  rw [apply_ite (State.later · k)]
  rfl

theorem applyReload_later : applyReload (s.later k) = (applyReload s).later k := by
  unfold applyReload
  rw [apply_ite (State.later · k)]
  rfl

theorem notify_later (n : Nat) : notify n (s.later k) = (notify n s).later k := by
  cases h : s.cfg.platform <;> simp [notify, State.later, h]

theorem later_right_comm (m : Nat) : (s.later k).later m = (s.later m).later k := by
  simp only [State.later, Nat.add_right_comm]

/-- A tick adds its 4 to whatever the count is. -/
theorem tick_later : tick (s.later k) = (tick s).later k := by
  have hadvance : advanceCounter (applyReload (s.later k)) = (advanceCounter (applyReload s)).later k := by
    rw [applyReload_later]
    exact timerEdge_later { applyReload s with counter := (applyReload s).counter + 4 } k _ _
  have htick (u : State) : tick u = notify 4 ((advanceCounter (applyReload u)).later 4) := rfl
  rw [htick, htick, hadvance, later_right_comm, notify_later]

theorem tick_tick_later : tick (tick (s.later k)) = (tick (tick s)).later k := by rw [tick_later, tick_later]

/-! ### The bus and the timed accesses -/

theorem readHandler_later (h : Handler) (a : Word) : readHandler h a (s.later k) = (readHandler h a s).later k := by
  cases h with
  | core r => cases r <;> rfl
  | peripheral => rfl

theorem busRead_later (a : Word) : busRead a (s.later k) = (busRead a s).later k := by
  unfold busRead
  rw [State.later_cfg, State.later_registry]
  cases inWindow s.cfg a with
  | false => rfl
  | true =>
    cases s.registry.lookup a with
    | some h => exact readHandler_later s k h a
    | none => cases s.cfg.mustHaveHandler.contains a <;> rfl

theorem writeCore_later (r : CoreReg) (v : Byte) : writeCore r v (s.later k) = (writeCore r v s).later k := by
  cases r
  case div => exact timerEdge_later { s with counter := 0 } k _ _
  all_goals rfl

theorem writeHandler_later (h : Handler) (a : Word) (v : Byte) :
    writeHandler h a v (s.later k) = (writeHandler h a v s).later k := by
  cases h with
  | core r => exact writeCore_later s k r v
  | peripheral =>
    unfold writeHandler
    rw [apply_ite (State.later · k)]
    rfl

theorem platformWrite_later (a : Word) (v : Byte) : platformWrite a v (s.later k) = (platformWrite a v s).later k := by
  cases h : s.cfg.platform <;> simp [platformWrite, State.later, h]

theorem busWrite_later (a : Word) (v : Byte) : busWrite a v (s.later k) = (busWrite a v s).later k := by
  unfold busWrite
  rw [State.later_cfg, State.later_registry]
  cases inWindow s.cfg a with
  | false => exact platformWrite_later s k a v
  | true =>
    cases s.registry.lookup a with
    | some h => exact writeHandler_later s k h a v
    | none => rfl

theorem memRead_later (a : Word) : memRead a (s.later k) = (memRead a s).later k := by
  unfold memRead
  rw [State.later_cfg]
  cases s.cfg.accessPhase with
  | accessThenTick =>
    simp only [busRead_later]
    exact Flow.map_later _ k fun v u => by rw [tick_later]
  | tickThenAccess => simp only [tick_later, busRead_later]

theorem memWrite_later (a : Word) (v : Byte) : memWrite a v (s.later k) = (memWrite a v s).later k := by
  unfold memWrite
  rw [State.later_cfg]
  cases s.cfg.accessPhase <;> simp only [tick_later, busWrite_later]

/-- A push is two writes, each after a decrement of `sp`, which is no part of the count. -/
theorem push16_later (v : Word) : push16 v (s.later k) = (push16 v s).later k := by
  have hpush (u : State) (x : Byte) :
      memWrite (u.sp - 1) x { u.later k with sp := u.sp - 1 } = (memWrite (u.sp - 1) x { u with sp := u.sp - 1 }).later k :=
    memWrite_later { u with sp := u.sp - 1 } k _ x
  exact (congrArg (fun u : State => memWrite (u.sp - 1) (loByte v) { u with sp := u.sp - 1 }) (hpush s (hiByte v))).trans
    (hpush _ (loByte v))

theorem pop8_later : pop8 (s.later k) = (pop8 s).later k := by
  unfold pop8
  rw [show (s.later k).sp = s.sp from rfl, memRead_later]
  exact Flow.map_later _ k fun _ _ => rfl

theorem pop16_later : pop16 (s.later k) = (pop16 s).later k := by
  unfold pop16
  rw [pop8_later]
  refine Flow.bind_later _ k fun lo u => ?_
  rw [pop8_later]
  exact Flow.map_later _ k fun _ _ => rfl

theorem dispatch_later (t : Irq) : dispatch t (s.later k) = (dispatch t s).later k := by
  have hwait : tick (tick { s.later k with ime := false }) = (tick (tick { s with ime := false })).later k :=
    tick_tick_later { s with ime := false } k
  rw [dispatch_eq, dispatch_eq, hwait, push16_later]
  exact tick_later { clearInterrupt t (push16 s.pc (tick (tick { s with ime := false }))) with pc := t.vector } k

/-! ### Fetching -/

theorem fetch8_later : fetch8 (s.later k) = (fetch8 s).later k := by
  unfold fetch8
  rw [show (s.later k).pc = s.pc from rfl, memRead_later]
  exact Flow.map_later _ k fun _ _ => rfl

theorem fetch16_later : fetch16 (s.later k) = (fetch16 s).later k := by
  unfold fetch16
  rw [fetch8_later]
  refine Flow.bind_later _ k fun lo u => ?_
  rw [fetch8_later]
  exact Flow.map_later _ k fun _ _ => rfl

theorem fetchOpcode_later : fetchOpcode (s.later k) = (fetchOpcode s).later k := by
  unfold fetchOpcode
  have hread := memRead_later { s with curOp := none, opaddr := s.pc } k s.pc
  exact (congrArg (Flow.map · _) hread).trans (Flow.map_later _ k fun _ _ => rfl)

theorem fetchInstr_later : fetchInstr (s.later k) = (fetchInstr s).later k := by
  unfold fetchInstr
  rw [fetchOpcode_later]
  refine Flow.bind_later _ k fun op u => ?_
  cases decodeBase op with
  | op i => rfl
  | n f => simpa only [fetch8_later] using Flow.map_later (fetch8 u) k fun _ _ => rfl
  | nn f => simpa only [fetch16_later] using Flow.map_later (fetch16 u) k fun _ _ => rfl
  | cb => simpa only [fetch8_later] using Flow.map_later (fetch8 u) k fun _ _ => rfl

/-! ### Registers and shared bodies -/

theorem setR8_later (r : Reg8) (v : Byte) : (s.later k).setR8 r v = (s.setR8 r v).later k := by cases r <;> rfl

theorem setR8Alu_later (r : Reg8) (o : AluOut) : (s.later k).setR8Alu r o = (s.setR8Alu r o).later k := by cases r <;> rfl

theorem setR16_later (rr : Reg16) (v : Word) : (s.later k).setR16 rr v = (s.setR16 rr v).later k := by cases rr <;> rfl

theorem setStk_later (qq : RegStk) (v : Word) : (s.later k).setStk qq v = (s.setStk qq v).later k := by cases qq <;> rfl

theorem jumpTo_later (target : Word) : jumpTo target (s.later k) = (jumpTo target s).later k := by
  have htaken : tick { s.later k with pc := target } = (tick { s with pc := target }).later k :=
    tick_later { s with pc := target } k
  unfold jumpTo
  rw [apply_ite (State.later · k), internal_eq, internal_eq, htaken]
  rfl

theorem callTo_later (target : Word) : callTo target (s.later k) = (callTo target s).later k := by
  rw [callTo_eq, callTo_eq, tick_later, push16_later]
  rfl

/-- A meaning that pops a word commutes if what it does with the word does. -/
theorem finish_pop16_later {f : Word → State → State} (hf : ∀ v u, f v (u.later k) = (f v u).later k) :
    (pop16 (s.later k)).finish f = laterResult ((pop16 s).finish f) k := by
  rw [pop16_later]
  exact Flow.finish_later _ k hf

theorem doReturn_later : doReturn (s.later k) = laterResult (doReturn s) k :=
  finish_pop16_later s k fun v u => tick_later { u with pc := v } k

theorem returnFromInterrupt_later : returnFromInterrupt (s.later k) = laterResult (returnFromInterrupt s) k :=
  finish_pop16_later s k fun v u => congrArg (fun w : State => { w with ime := true }) (tick_later { u with pc := v } k)

/-- A meaning that reads one byte commutes if what it does with the byte does. -/
theorem finish_memRead_later (a : Word) {f : Byte → State → State} (hf : ∀ v u, f v (u.later k) = (f v u).later k) :
    (memRead a (s.later k)).finish f = laterResult ((memRead a s).finish f) k := by
  rw [memRead_later]
  exact Flow.finish_later _ k hf

theorem rmwHl_later {op : Byte → State → AluOut} (hop : ∀ v u, op v (u.later k) = op v u) :
    rmwHl op (s.later k) = laterResult (rmwHl op s) k :=
  finish_memRead_later s k s.hl fun v u => by
    rw [hop, show (u.later k).hl = u.hl from rfl, memWrite_later]
    rfl

theorem updateHl_later (f : Byte → Byte) : updateHl f (s.later k) = laterResult (updateHl f s) k :=
  finish_memRead_later s k s.hl fun v u => memWrite_later u k u.hl (f v)

theorem laterResult_ite (c : Bool) {x y : State} {x' y' : State} (hx : x' = x.later k) (hy : y' = y.later k) :
    (if c = true then .next x' else .next y' : Result) = laterResult (if c = true then .next x else .next y) k := by
  subst hx hy
  cases c <;> rfl

/-! ### Instructions and the step -/

/-- The instructions by what they do: transfer control, use the stack, write or read a byte, or work on registers alone. -/
theorem exec_later (i : Instr) : exec i (s.later k) = laterResult (exec i s) k := by
  cases i
  case jpNn nn => exact congrArg _ (jumpTo_later s k nn)
  case jrE e => exact congrArg _ (jumpTo_later s k _)
  case jpCcNn cc nn => exact laterResult_ite k (s.cond cc) (jumpTo_later s k nn) rfl
  case jrCcE cc e => exact laterResult_ite k (s.cond cc) (jumpTo_later s k _) rfl
  case callNn nn => exact congrArg _ (callTo_later s k nn)
  case rst nn => exact congrArg _ (callTo_later s k nn)
  case callCcNn cc nn => exact laterResult_ite k (s.cond cc) (callTo_later s k nn) rfl
  case ret => exact doReturn_later s k
  case reti => exact returnFromInterrupt_later s k
  case retCc cc =>
    change (if (tick (s.later k)).cond cc = true then doReturn (tick (s.later k)) else .next (tick (s.later k))) =
      laterResult (if (tick s).cond cc = true then doReturn (tick s) else .next (tick s)) k
    rw [tick_later, apply_ite (laterResult · k), doReturn_later]
    rfl
  case pushQq qq =>
    change (.next (push16 ((tick (s.later k)).stk qq) (tick (s.later k))) : Result) = _
    rw [tick_later, show ((tick s).later k).stk qq = (tick s).stk qq from rfl, push16_later]
    rfl
  case pushAf =>
    change (.next (push16 (tick (s.later k)).af (tick (s.later k))) : Result) = _
    rw [tick_later, show ((tick s).later k).af = (tick s).af from rfl, push16_later]
    rfl
  case popQq qq => exact finish_pop16_later s k fun v u => setStk_later u k qq v
  case popAf => exact finish_pop16_later s k fun _ _ => rfl
  case ldNnSp nn => exact congrArg _ ((congrArg _ (memWrite_later s k nn _)).trans (memWrite_later _ k _ _))
  case ldHliA => exact congrArg (fun u : State => (.next (u.setHl (u.hl + 1)) : Result)) (memWrite_later s k s.hl s.a)
  case ldHldA => exact congrArg (fun u : State => (.next (u.setHl (u.hl - 1)) : Result)) (memWrite_later s k s.hl s.a)
  case ldBcA | ldDeA | ldHlN | ldHlR | ldhNA | ldhCA | ldNnA => exact congrArg _ (memWrite_later s k _ _)
  case incHl | decHl | rlcHl | rrcHl | rlHl | rrHl | slaHl | sraHl | swapHl | srlHl =>
    exact rmwHl_later s k fun _ _ => rfl
  case resBHl | setBHl => exact updateHl_later s k _
  case ldRHl r => exact finish_memRead_later s k _ fun v u => setR8_later u k r v
  case ldABc | ldADe | ldANn | ldhAC | ldhAN | ldAHli | ldAHld | addAHl | adcAHl | subHl | sbcAHl | andHl | xorHl | orHl
      | cpHl | bitBHl => exact finish_memRead_later s k _ fun _ _ => rfl
  case halt => exact laterResult_ite k (!s.ime && pending s != 0) rfl rfl
  case ldRR | ldRN | resBR | setBR => exact congrArg _ (setR8_later s k _ _)
  case incR | decR | rlcR | rrcR | rlR | rrR | slaR | sraR | swapR | srlR => exact congrArg _ (setR8Alu_later s k _ _)
  case ldRrNn => exact congrArg _ (setR16_later s k _ _)
  case incRr | decRr => exact congrArg _ ((congrArg tick (setR16_later s k _ _)).trans (tick_later _ k))
  case addHlRr rr =>
    exact congrArg _ (tick_later ((s.setFlags s.flagZ false (add16 s.hl (s.r16 rr)).h (add16 s.hl (s.r16 rr)).c).setHl
      (add16 s.hl (s.r16 rr)).r) k)
  case ldSpHl => exact congrArg _ (tick_later { s with sp := s.hl } k)
  case ldHlSpE e =>
    exact congrArg _ (tick_later ((s.setFlags false false (addSp s.sp e).h (addSp s.sp e).c).setHl (addSp s.sp e).r) k)
  case addSpE e =>
    exact congrArg (fun u : State => (.next { u with sp := (addSp s.sp e).r } : Result))
      (tick_tick_later (s.setFlags false false (addSp s.sp e).h (addSp s.sp e).c) k)
  all_goals rfl

theorem deferredEnable_later : deferredEnable (s.later k) = (deferredEnable s).later k := by
  unfold deferredEnable
  rw [apply_ite (State.later · k)]
  rfl

theorem Entry.later_ite (c : Bool) {x y x' y' : State} (hx : x' = x.later k) (hy : y' = y.later k) :
    (if c = true then .stepOver x' else .fetch y' : Entry) = (if c = true then .stepOver x else .fetch y : Entry).later k := by
  subst hx hy
  cases c <;> rfl

theorem stepEntry_later : stepEntry (s.later k) = (stepEntry s).later k := by
  unfold stepEntry
  rw [show checkInterrupts (s.later k) = checkInterrupts s from rfl]
  cases checkInterrupts s with
  | some t =>
    exact Entry.later_ite k s.ime (dispatch_later { s with halted := false } k t)
      (deferredEnable_later { s with halted := false } k)
  | none => exact Entry.later_ite k s.halted (tick_later s k) (deferredEnable_later s k)

theorem step_later : step (s.later k) = laterResult (step s) k := by
  unfold step
  rw [show (s.later k).faulted = s.faulted from rfl, stepEntry_later]
  cases s.faulted with
  | some r => rfl
  | none =>
    cases stepEntry s with
    | stepOver u => rfl
    | fetch u =>
      simp only [Entry.later, fetchInstr_later]
      cases fetchInstr u with
      | ok i w => exact exec_later w k i
      | raised w => rfl

/-- Settles O57: a step of the machine with the larger count is the step of the machine, with the larger count. -/
theorem cyclesAreUnreadable : Obligations.CyclesAreUnreadable := by
  intro s t k h
  have hstep := step_later s k
  rw [h] at hstep
  exact hstep

end Sys2Proof.Machine
end

section
/-! PROOFS. What the bus does at each kind of address, one equation per case (spec/20_memory.md R68, R69), and the statements about
its routes, the CORE registers, plain memory and the phase of an access. -/

namespace Sys2Proof.Machine

variable {s : State} {a : Word} (v : Byte)

/-! ### The branches of the routing -/

theorem busRead_handled {h : Handler} (hw : inWindow s.cfg a = true) (hl : s.registry.lookup a = some h) :
    busRead a s = readHandler h a s := by
  simp [busRead, hw, hl]

theorem busWrite_handled {h : Handler} (hw : inWindow s.cfg a = true) (hl : s.registry.lookup a = some h) :
    busWrite a v s = writeHandler h a v s := by
  simp [busWrite, hw, hl]

theorem busRead_missing (hw : inWindow s.cfg a = true) (hl : s.registry.lookup a = none)
    (hm : s.cfg.mustHaveHandler.contains a = true) : busRead a s = .raised (raiseFault .handlerMissing a s) := by
  simp only [busRead, hw, hl, hm, if_true]

/-- An address of the window that neither has a handler nor must have one is plain memory. -/
theorem plainAt_of_unhandled (hw : inWindow s.cfg a = true) (hl : s.registry.lookup a = none)
    (hm : s.cfg.mustHaveHandler.contains a = false) : plainAt s a = true := by
  simp only [plainAt, hw, hl, hm, if_true, Option.isNone_none, Bool.not_false, Bool.and_self]

theorem busWrite_unhandled (hw : inWindow s.cfg a = true) (hl : s.registry.lookup a = none) :
    busWrite a v s = { s with flat := s.flat.write a v } := by
  simp [busWrite, hw, hl]

theorem busRead_outside (hw : inWindow s.cfg a = false) : busRead a s = .ok (platformRead a s) s := by
  simp [busRead, hw]

theorem busWrite_outside (hw : inWindow s.cfg a = false) : busWrite a v s = platformWrite a v s := by
  simp [busWrite, hw]

/-- Settles O21: the cases are the branches of the routing; the frames of a read and of a write give the last two clauses. -/
theorem busRoutes : Obligations.BusRoutes := fun s a v =>
  ⟨fun hw =>
      ⟨fun _ hl => ⟨busRead_handled hw hl, busWrite_handled v hw hl⟩,
       fun hl =>
        ⟨busRead_missing hw hl, fun hm => busRead_plain s a (plainAt_of_unhandled hw hl hm), busWrite_unhandled v hw hl⟩,
       busWrite_handled v hw⟩,
   fun hw => ⟨busRead_outside hw, busWrite_outside v hw⟩,
   busRead_readable s a,
   busWrite_cycles s a v⟩

/-! ### The CORE registers -/

theorem busRead_core {r : CoreReg} (hw : inWindow s.cfg a = true) (hl : s.registry.lookup a = some (.core r)) :
    busRead a s = .ok (readCore r s) s := busRead_handled hw hl

theorem busWrite_core {r : CoreReg} (hw : inWindow s.cfg a = true) (hl : s.registry.lookup a = some (.core r)) :
    busWrite a v s = writeCore r v s := busWrite_handled v hw hl

/-- Reading a CORE register back: a write changes neither the window nor the registry. -/
theorem busRead_busWrite_core {r : CoreReg} (hw : inWindow s.cfg a = true) (hl : s.registry.lookup a = some (.core r)) :
    busRead a (busWrite a v s) = .ok (readCore r (writeCore r v s)) (busWrite a v s) := by
  have hread := busRead_core (s := busWrite a v s) (by rwa [busWrite_cfg]) (by rwa [busWrite_registry])
  rw [hread, busWrite_core v hw hl]

/-- TAC answers its three stored bits under five ones (R39, D18). -/
theorem readCore_tac (s : State) : readCore .tac s = 0b11111#5 ++ s.tac :=
  (show ∀ x : BitVec 3, x.setWidth 8 ||| 0xF8 = 0b11111#5 ++ x by decide) s.tac

/-- IF answers its five stored bits under three ones (R31, D18). -/
theorem readCore_ifr (s : State) : readCore .ifr s = 0b111#3 ++ s.ifr :=
  (show ∀ x : BitVec 5, x.setWidth 8 ||| 0xE0 = 0b111#3 ++ x by decide) s.ifr

theorem writeCore_tac (s : State) (v : Byte) : writeCore .tac v s = { s with tac := v.extractLsb' 0 3 } := by
  rw [← BitVec.setWidth_eq_extractLsb' (by decide)]
  rfl

theorem writeCore_ifr (s : State) (v : Byte) : writeCore .ifr v s = { s with ifr := v.extractLsb' 0 5 } := by
  rw [← BitVec.setWidth_eq_extractLsb' (by decide)]
  rfl

theorem writeCore_ie_stored (h : s.cfg.ieUpper = .stored) : writeCore .ie v s = { s with ie := v } := by
  simp [writeCore, ieStored, h]

theorem writeCore_ie_dropped (h : s.cfg.ieUpper = .dropped) : writeCore .ie v s = { s with ie := v &&& 0x1F } := by
  simp [writeCore, ieStored, h]

/-- Settles O22: the bus reaches the register at its address, so each clause is what that register answers or stores. -/
theorem coreRegisters : Obligations.CoreRegisters := fun s _ v hw =>
  ⟨busRead_core hw,
   fun hl => ⟨busRead_core hw hl, busWrite_core v hw hl⟩,
   fun hl => ⟨busRead_core hw hl, busWrite_core v hw hl⟩,
   fun hl => ⟨readCore_tac s ▸ busRead_core hw hl, writeCore_tac s v ▸ busWrite_core v hw hl⟩,
   fun hl => ⟨readCore_ifr s ▸ busRead_core hw hl, writeCore_ifr s v ▸ busWrite_core v hw hl⟩,
   fun hl =>
    ⟨busRead_core hw hl,
     fun hie => writeCore_ie_stored v hie ▸ busWrite_core v hw hl,
     fun hie => writeCore_ie_dropped v hie ▸ busWrite_core v hw hl⟩⟩

theorem readCore_writeCore_tac (s : State) (v : Byte) : readCore .tac (writeCore .tac v s) = v ||| 0xF8 :=
  (show ∀ x : Byte, (x.setWidth 3).setWidth 8 ||| 0xF8 = x ||| 0xF8 by decide) v

theorem readCore_writeCore_ifr (s : State) (v : Byte) : readCore .ifr (writeCore .ifr v s) = v ||| 0xE0 :=
  (show ∀ x : Byte, (x.setWidth 5).setWidth 8 ||| 0xE0 = x ||| 0xE0 by decide) v

/-- Settles O23: the bits that TAC and IF do not store are among those that a read sets. -/
theorem alwaysOneBits : Obligations.AlwaysOneBits := fun s _ v hw =>
  ⟨fun hl => readCore_writeCore_tac s v ▸ busRead_busWrite_core v hw hl,
   fun hl => readCore_writeCore_ifr s v ▸ busRead_busWrite_core v hw hl⟩

/-! ### Timed accesses -/

/-- On plain memory a read after a write M-cycle answers what was written, and any other address what it held. -/
theorem flat_read_memWrite_plain (hf : s.flat.wf = true) (ha : plainAt s a = true) (b : Word) :
    (memWrite a v s).flat.read b = if b = a then v else s.flat.read b := by
  split
  · next h =>
    rw [h, memWrite_plain s a v ha]
    exact Memory.read_write_same hf a v
  · next h => exact memWrite_flat_read s a b v h

/-- Settles O24: a write M-cycle leaves plain addresses plain, so the read answers the byte that `flat` then holds. -/
theorem readAfterWrite : Obligations.ReadAfterWrite := by
  intro s a b v hf ha hb
  have hread := busRead_plain (memWrite a v s) b ((plainAt_memWrite s a b v).trans hb)
  rw [flat_read_memWrite_plain v hf ha b] at hread
  exact ⟨hread, memWrite_wf s a v hf⟩

theorem memWrite_accessThenTick (h : s.cfg.accessPhase = .accessThenTick) : memWrite a v s = tick (busWrite a v s) := by
  simp only [memWrite, h]

theorem memWrite_tickThenAccess (h : s.cfg.accessPhase = .tickThenAccess) : memWrite a v s = busWrite a v (tick s) := by
  simp only [memWrite, h]

theorem memRead_accessThenTick (h : s.cfg.accessPhase = .accessThenTick) :
    memRead a s = (busRead a s).map fun x u => (x, tick u) := by
  simp only [memRead, h]

theorem memRead_tickThenAccess (h : s.cfg.accessPhase = .tickThenAccess) : memRead a s = busRead a (tick s) := by
  simp only [memRead, h]

/-- Settles O25: the two orders are the two branches of a timed access. -/
theorem accessPhase : Obligations.AccessPhase := by
  intro s a v
  refine ⟨fun h => ⟨memWrite_accessThenTick v h, fun x u hr => ?_⟩,
    fun h => ⟨memWrite_tickThenAccess v h, memRead_tickThenAccess h⟩⟩
  rw [memRead_accessThenTick h, hr, Flow.map_ok]

end Sys2Proof.Machine
end

section
/-! PROOFS. The handler registry at construction: an attachment that succeeds takes a free address (spec/20_memory.md R70, D20). -/

namespace Sys2Proof.Machine

variable {registry r : List (Word × Handler)} {a : Word} {h : Handler}

theorem attach_eq_some_iff : attach registry a h = some r ↔ registry.lookup a = none ∧ registry ++ [(a, h)] = r := by
  unfold attach
  cases registry.lookup a <;> simp

theorem attachAll_cons (registry rest : List (Word × Handler)) (a : Word) (h : Handler) :
    attachAll registry ((a, h) :: rest) = (attach registry a h).bind (attachAll · rest) := by
  rw [attachAll]
  cases attach registry a h <;> rfl

theorem attachAll_append (registry xs ys : List (Word × Handler)) :
    attachAll registry (xs ++ ys) = (attachAll registry xs).bind (attachAll · ys) := by
  induction xs generalizing registry with
  | nil => rfl
  | cons x xs ih =>
    obtain ⟨a, h⟩ := x
    simp only [List.cons_append, attachAll_cons, Option.bind_assoc, ih]

/-- An address that has a handler keeps it, and no attachment that succeeds names it: the first that did would find it taken. -/
theorem attachAll_keeps {todo : List (Word × Handler)} (hl : registry.lookup a = some h)
    (hr : attachAll registry todo = some r) : r.lookup a = some h ∧ ∀ h', (a, h') ∉ todo := by
  induction todo generalizing registry with
  | nil =>
    cases hr
    exact ⟨hl, fun _ => List.not_mem_nil⟩
  | cons x rest ih =>
    obtain ⟨b, k⟩ := x
    rw [attachAll_cons, Option.bind_eq_some_iff] at hr
    obtain ⟨next, hnext, hrest⟩ := hr
    obtain ⟨hfree, rfl⟩ := attach_eq_some_iff.mp hnext
    have hlnext : (registry ++ [(b, k)]).lookup a = some h := by rw [List.lookup_append, hl, Option.some_or]
    obtain ⟨hkept, hnot⟩ := ih hlnext hrest
    refine ⟨hkept, fun h' hmem => ?_⟩
    rcases List.mem_cons.mp hmem with heq | hmem
    · cases heq
      rw [hl] at hfree
      cases hfree
    · exact hnot h' hmem

/-- The six CORE handlers meet no other at their default addresses (R72, D14). -/
theorem attachAll_coreRegistry : attachAll [] (coreRegistry Params.regAddr) = some (coreRegistry Params.regAddr) := by decide

theorem exists_coreRegistry_lookup (ha : a ∈ [0xFF04#16, 0xFF05, 0xFF06, 0xFF07, 0xFF0F, 0xFFFF]) :
    ∃ h, (coreRegistry Params.regAddr).lookup a = some h := by
  simp only [List.mem_cons, List.not_mem_nil, or_false] at ha
  rcases ha with rfl | rfl | rfl | rfl | rfl | rfl <;> exact ⟨_, rfl⟩

theorem construct_none_of_attachAll (p : ResetProfile) (cfg : Config) (regAddr : RegAddr) (peripherals : List Word)
    (image : List (Word × Byte)) (env : Nat)
    (h : attachAll [] (coreRegistry regAddr ++ peripherals.map fun a => (a, Handler.peripheral)) = none) :
    construct p cfg regAddr peripherals image env = none := by
  simp only [construct, h]

/-- Settles O60: construction attaches the CORE handlers first, so a peripheral at one of their addresses comes second. -/
theorem oneHandlerPerAddress : Obligations.OneHandlerPerAddress := by
  refine ⟨fun _ _ _ _ _ => attachAll_keeps, fun p cfg peripherals image env a ha hper => ?_⟩
  obtain ⟨h, hcore⟩ := exists_coreRegistry_lookup ha
  refine construct_none_of_attachAll p cfg _ peripherals image env ?_
  rw [attachAll_append, attachAll_coreRegistry, Option.bind_some, Option.eq_none_iff_forall_ne_some]
  intro r hr
  exact (attachAll_keeps hcore hr).2 Handler.peripheral (List.mem_map_of_mem hper)

end Sys2Proof.Machine
end

section
/-! PROOFS. The decoder and the encoder agree (spec/30_encoding.md R100, R108 to R111, R115): what `decode` accepts, said once, and
the opcode maps compared with the patterns of the instructions. -/

namespace Sys2Proof
open Machine

/-! ### What `decode` accepts -/

/-- The byte `op` and the bytes after it hold an instruction, then a rest: one way for each format (R100). -/
inductive Parses (op : Byte) : List Byte → Instr → List Byte → Prop
  | op {i : Instr} {rest : List Byte} (h : decodeBase op = .op i) : Parses op rest i rest
  | n {k : Byte → Instr} {rest : List Byte} (h : decodeBase op = .n k) (n : Byte) : Parses op (n :: rest) (k n) rest
  | nn {k : Word → Instr} {rest : List Byte} (h : decodeBase op = .nn k) (lo hi : Byte) :
      Parses op (lo :: hi :: rest) (k (word hi lo)) rest
  | cb {rest : List Byte} (h : decodeBase op = .cb) (op2 : Byte) : Parses op (op2 :: rest) (decodeCb op2) rest

theorem decode_cons_iff {op : Byte} {bytes rest : List Byte} {i : Instr} :
    decode (op :: bytes) = .ok (i, rest) ↔ Parses op bytes i rest := by
  constructor
  · intro h
    simp only [decode] at h
    split at h
    next hs => cases h; exact .op hs
    next hs => cases h; exact .n hs _
    next hs => cases h; exact .nn hs _ _
    next hs => cases h; exact .cb hs _
    next => cases h
  · rintro (hs | ⟨hs, _⟩ | ⟨hs, _, _⟩ | ⟨hs, _⟩) <;> simp only [decode, hs]

/-- No instruction looks past its own bytes. -/
theorem decode_append {bytes rest : List Byte} {i : Instr} (h : decode bytes = .ok (i, rest)) (more : List Byte) :
    decode (bytes ++ more) = .ok (i, rest ++ more) := by
  cases bytes with
  | nil => cases h
  | cons op bytes =>
    rw [List.cons_append, decode_cons_iff]
    cases decode_cons_iff.mp h with
    | op hs => exact .op hs
    | n hs n => exact .n hs n
    | nn hs lo hi => exact .nn hs lo hi
    | cb hs op2 => exact .cb hs op2

/-! ### From an instruction to its bytes and back -/

theorem decode_withNn {op : Byte} {k : Word → Instr} (hs : decodeBase op = .nn k) (nn : Word) :
    decode (withNn op nn) = .ok (k nn, []) := by
  have h := Parses.nn (rest := []) hs (loByte nn) (hiByte nn)
  rw [word_hiByte_loByte] at h
  exact decode_cons_iff.mpr h

theorem RstTarget.exists_eq {t : Word} (h : RstTarget t) : ∃ y : Fin 8, t = BitVec.ofNat 16 (8 * y) := by
  obtain ⟨hmod, hle⟩ := h
  refine ⟨⟨t.toNat / 8, by omega⟩, ?_⟩
  rw [Nat.mul_div_cancel' (Nat.dvd_of_mod_eq_zero hmod), BitVec.ofNat_toNat, BitVec.setWidth_eq]

/-- By the codes that the first byte or the CB byte holds (R104, R106, R107, R119): once they are known, the byte is, and decoding
it computes. Immediate bytes and words stay as they are. -/
theorem decode_encode {i : Instr} (hi : i.WellFormed) : decode (encode i) = .ok (i, []) := by
  cases i
  case incR r | decR r | ldRN r _ | ldRHl r | ldHlR r | addAR r | adcAR r | subR r | sbcAR r | andR r | xorR r | orR r
      | cpR r | rlcR r | rrcR r | rlR r | rrR r | slaR r | sraR r | swapR r | srlR r => cases r <;> rfl
  case ldRR r r' => cases r <;> cases r' <;> rfl
  case bitBR b r | resBR b r | setBR b r => obtain ⟨b⟩ := b; cases r <;> fin_cases b <;> rfl
  case bitBHl b | resBHl b | setBHl b => obtain ⟨b⟩ := b; fin_cases b <;> rfl
  case addHlRr rr | incRr rr | decRr rr => cases rr <;> rfl
  case jrCcE cc _ | retCc cc => cases cc <;> rfl
  case ldRrNn rr nn => exact decode_withNn (by cases rr <;> rfl) nn
  case jpCcNn cc nn | callCcNn cc nn => exact decode_withNn (by cases cc <;> rfl) nn
  case ldNnSp nn | ldNnA nn | ldANn nn | jpNn nn | callNn nn => exact decode_withNn rfl nn
  case pushQq qq | popQq qq =>
    cases qq with
    | af => exact absurd rfl hi
    | bc | de | hl => rfl
  case rst t =>
    obtain ⟨y, rfl⟩ := RstTarget.exists_eq hi
    fin_cases y <;> rfl
  all_goals rfl

/-- Settles O1: the encoding decodes back, and the bytes that follow it are the rest. -/
theorem decodeOfEncode : Obligations.DecodeOfEncode := fun _ rest hi => decode_append (decode_encode hi) rest

/-! ### From bytes to an instruction and back -/

/-- The encoding of an instruction, and whether it is an instruction that an encoding stands for. -/
def Instr.checkedEncode (i : Instr) : List Byte × Bool := (encode i, i.wellFormed)

theorem Instr.checkedEncode_eq_iff {i : Instr} {bytes : List Byte} :
    i.checkedEncode = (bytes, true) ↔ i.WellFormed ∧ bytes = encode i := by
  rw [Instr.checkedEncode, Prod.mk.injEq, i.wellFormed_iff, and_comm, eq_comm (a := bytes)]

/-- The instructions of this entry of the base page are well-formed and encoded with the first byte `op`, whatever their operand
bytes are. -/
def Shape.Encodes (op : Byte) : Shape → Prop
  | .op i => i.checkedEncode = ([op], true)
  | .n k => (fun n => (k n).checkedEncode) = fun n => ([op, n], true)
  | .nn k => (fun nn => (k nn).checkedEncode) = fun nn => (withNn op nn, true)
  | .cb => op = 0xCB

/-- The base page (R108, R109) entry by entry; for each of the 256 both sides compute to the same pattern. -/
theorem decodeBase_encodes (op : Byte) : (decodeBase op).Encodes op := by
  obtain ⟨op⟩ := op
  fin_cases op <;> rfl

/-- The CB page (R110, R111) entry by entry. -/
theorem checkedEncode_decodeCb : ∀ op2 : Byte, (decodeCb op2).checkedEncode = ([0xCB, op2], true) := by decide

theorem Parses.exists_encoding {op : Byte} {bytes rest : List Byte} {i : Instr} (h : Parses op bytes i rest) :
    ∃ own, op :: bytes = own ++ rest ∧ i.checkedEncode = (own, true) := by
  have hentry := decodeBase_encodes op
  cases h with
  | op hs =>
    rw [hs] at hentry
    exact ⟨[op], rfl, hentry⟩
  | n hs n =>
    rw [hs] at hentry
    exact ⟨[op, n], rfl, congrFun hentry n⟩
  | nn hs lo hi =>
    rw [hs] at hentry
    exact ⟨withNn op (word hi lo), by simp [withNn], congrFun hentry (word hi lo)⟩
  | cb hs op2 =>
    rw [hs] at hentry
    cases hentry
    exact ⟨[0xCB, op2], rfl, checkedEncode_decodeCb op2⟩

/-- Settles O2: each format puts the first byte and the operand bytes where the encoder puts them. -/
theorem encodeOfDecode : Obligations.EncodeOfDecode := by
  intro bytes rest i h
  cases bytes with
  | nil => cases h
  | cons op bytes =>
    obtain ⟨own, hbytes, hown⟩ := (decode_cons_iff.mp h).exists_encoding
    obtain ⟨hi, rfl⟩ := Instr.checkedEncode_eq_iff.mp hown
    exact ⟨hi, hbytes⟩

/-! ### The length -/

/-- The bytes that a format takes after the first one. -/
def Shape.operandCount : Shape → Nat
  | .op _ => 0
  | .n _ | .cb => 1
  | .nn _ => 2

/-- The opcode columns of the length table (R116) are those of the base page. -/
theorem operandCount_decodeBase : ∀ op : Byte, (decodeBase op).operandCount = Machine.operandCount op := by decide

section
variable {op : Byte} {bytes rest : List Byte} {i : Instr}

theorem Parses.rest_eq_drop (h : Parses op bytes i rest) :
    operandCount op ≤ bytes.length ∧ rest = bytes.drop (operandCount op) := by
  rw [← operandCount_decodeBase]
  cases h with
  | op hs | n hs _ | nn hs _ _ | cb hs _ => simp [hs, Shape.operandCount]

theorem exists_parses (h : operandCount op ≤ bytes.length) : ∃ i rest, Parses op bytes i rest := by
  rw [← operandCount_decodeBase] at h
  cases hs : decodeBase op with
  | op i => exact ⟨_, _, .op hs⟩
  | n k =>
    match bytes, hs ▸ h with
    | n :: _, _ => exact ⟨_, _, .n hs n⟩
  | nn k =>
    match bytes, hs ▸ h with
    | lo :: hi :: _, _ => exact ⟨_, _, .nn hs lo hi⟩
  | cb =>
    match bytes, hs ▸ h with
    | op2 :: _, _ => exact ⟨_, _, .cb hs op2⟩

end

/-- Settles O3: with enough bytes one of the formats fits, and a format that fits has enough bytes. -/
theorem firstByteDecidesLength : Obligations.FirstByteDecidesLength := by
  intro op bytes
  constructor
  · intro hlen
    obtain ⟨i, rest, h⟩ := exists_parses hlen
    exact ⟨i, h.rest_eq_drop.2 ▸ decode_cons_iff.mpr h⟩
  · intro hlen
    cases h : decode (op :: bytes) with
    | error e => cases e; rfl
    | ok p => exact absurd (decode_cons_iff.mp h).rest_eq_drop.1 (Nat.not_le.mpr hlen)

/-- Settles O4: each word decodes by computation. -/
theorem decodedWords : Obligations.DecodedWords := by
  unfold Obligations.DecodedWords
  exact ⟨rfl, rfl, rfl, rfl, rfl, rfl, rfl, rfl, rfl, rfl, rfl⟩

end Sys2Proof
end

section
/-! PROOFS. The fetch of an instruction from plain memory in one expression (spec/30_encoding.md R101 to R103, R115), and the
M-cycles of a step (R116, spec/70_reset_and_hazards.md R380). -/

namespace Sys2Proof.Machine

variable (u : State) (op : Byte)

/-! ### Fetching from plain memory -/

/-- The state on the way through the fetch that began in `u`: `op` has been fetched, `k` M-cycles have passed, and `pc` is at the
next byte. -/
def State.fetching (k : Nat) (pc : Word) : State :=
  (ticks k u).withCpu { u.cpu with pc := pc, haltBug := false, curOp := some op, opaddr := u.pc }

theorem State.fetching_eq (k : Nat) (pc : Word) :
    u.fetching op k pc = { ticks k u with pc := pc, haltBug := false, curOp := some op, opaddr := u.pc } := by
  rw [State.fetching, ← ticks_cpu u k]
  rfl

theorem State.fetching_f (k : Nat) (pc : Word) : (u.fetching op k pc).f = u.f := rfl

theorem State.fetching_cycles (k : Nat) (pc : Word) : (u.fetching op k pc).cycles = u.cycles + 4 * k := ticks_cycles u k

theorem State.fetching_flat (k : Nat) (pc : Word) : (u.fetching op k pc).flat = u.flat := ticks_flat u k

theorem plainAt_fetching (k : Nat) (pc a : Word) : plainAt (u.fetching op k pc) a = plainAt u a := by
  simp [plainAt, State.fetching_eq]

/-- Ticks may be counted from the last one. -/
theorem tick_ticks (s : State) (n : Nat) : tick (ticks n s) = ticks (n + 1) s := by
  induction n generalizing s with
  | zero => rfl
  | succ k ih => exact ih (tick s)

theorem tick_fetching (k : Nat) (pc : Word) : tick (u.fetching op k pc) = u.fetching op (k + 1) pc := by
  rw [State.fetching, tick_withCpu, tick_ticks]
  rfl

theorem fetch8_fetching {k : Nat} {pc : Word} (h : plainAt u pc = true) :
    fetch8 (u.fetching op k pc) = .ok (u.flat.read pc) (u.fetching op (k + 1) (pc + 1)) := by
  have hfetch := fetch8_plain (u.fetching op k pc) ((plainAt_fetching u op k pc pc).trans h)
  rw [tick_fetching, State.fetching_flat] at hfetch
  exact hfetch

theorem fetch16_fetching {k : Nat} {pc : Word} (hlo : plainAt u pc = true) (hhi : plainAt u (pc + 1) = true) :
    fetch16 (u.fetching op k pc) =
      .ok (word (u.flat.read (pc + 1)) (u.flat.read pc)) (u.fetching op (k + 2) (pc + 2)) := by
  rw [fetch16, fetch8_fetching u op hlo, Flow.bind_ok, fetch8_fetching u op hhi, Flow.map_ok, BitVec.add_assoc]
  rfl

/-- Where the first operand byte is read: under the halt bug it is the opcode byte again (R101). -/
def State.operandPc : Word := if u.haltBug then u.pc else u.pc + 1

theorem fetchOpcode_fetching (h : plainAt u u.pc = true) :
    fetchOpcode u = .ok (u.flat.read u.pc) (u.fetching (u.flat.read u.pc) 1 u.operandPc) := by
  rw [fetchOpcode_plain u h, State.fetching_eq]
  rfl

/-- Fetching an instruction reads the bytes that decode to it, one M-cycle each. -/
theorem fetchInstr_plain {i : Instr} {n : Nat}
    (hdecode : decode (u.flat.read u.pc :: bytesFrom u.flat u.operandPc n) = .ok (i, [])) (hop : plainAt u u.pc = true)
    (hoperands : ∀ k, k < n → plainAt u (u.operandPc + BitVec.ofNat 16 k) = true) :
    fetchInstr u = .ok i (u.fetching (u.flat.read u.pc) (n + 1) (u.operandPc + BitVec.ofNat 16 n)) := by
  have hfirst (hn : 0 < n) : plainAt u u.operandPc = true := by simpa using hoperands 0 hn
  rw [fetchInstr, fetchOpcode_fetching u hop, Flow.bind_ok]
  generalize hbytes : bytesFrom u.flat u.operandPc n = bytes, hrest : ([] : List Byte) = rest at hdecode
  cases decode_cons_iff.mp hdecode with
  | op hs =>
    match n, hbytes.trans hrest.symm with
    | 0, _ => simp only [hs, BitVec.add_zero]
  | n hs b =>
    subst hrest
    match n, hbytes with
    | 1, rfl => simp only [hs, fetch8_fetching u _ (hfirst Nat.one_pos)]; rfl
  | nn hs lo hi =>
    subst hrest
    match n, hbytes with
    | 2, rfl => simp only [hs, fetch16_fetching u _ (hfirst Nat.two_pos) (hoperands 1 Nat.one_lt_two)]; rfl
  | cb hs op2 =>
    subst hrest
    match n, hbytes with
    | 1, rfl => simp only [hs, fetch8_fetching u _ (hfirst Nat.one_pos)]; rfl

/-- A step that fetches from plain memory executes what the bytes decode to (R300). -/
theorem step_of_decode {s : State} {i : Instr} {n : Nat} (hs : s.faulted = none) (hentry : stepEntry s = .fetch u)
    (hdecode : decode (u.flat.read u.pc :: bytesFrom u.flat u.operandPc n) = .ok (i, [])) (hop : plainAt u u.pc = true)
    (hoperands : ∀ k, k < n → plainAt u (u.operandPc + BitVec.ofNat 16 k) = true) :
    step s = exec i (u.fetching (u.flat.read u.pc) (n + 1) (u.operandPc + BitVec.ofNat 16 n)) := by
  simp only [step, hs, hentry, fetchInstr_plain u hdecode hop hoperands]

/-! ### The M-cycles of a step -/

theorem bytesFrom_length (m : Memory) (a : Word) (n : Nat) : (bytesFrom m a n).length = n := by
  induction n generalizing a with
  | zero => rfl
  | succ k ih => rw [bytesFrom, List.length_cons, ih]

/-- The table counts the fetches of all the bytes (R116). -/
theorem encode_length_le_mcycles (i : Instr) (isTaken : Bool) : (encode i).length ≤ mcycles i isTaken := by
  cases isTaken <;> cases i <;> exact Nat.le_of_ble_eq_true rfl

/-- Whether a conditional transfer is taken depends on F alone (R107). -/
theorem taken_congr {s t : State} (h : t.f = s.f) (i : Instr) : taken i t = taken i s := by
  have hcond (cc : Cond) : t.cond cc = s.cond cc := by
    cases cc <;> simp only [State.cond, State.flagZ, State.flagC, h]
  cases i
  case jrCcE cc _ | jpCcNn cc _ | callCcNn cc _ | retCc cc => exact hcond cc
  all_goals rfl

/-- An instruction that leaves the machine without a fault costs what the table leaves after its fetches. -/
theorem exec_costs_of_not_faulted {s t : State} {i : Instr} (h : exec i s = .next t) (ht : t.faulted = none) :
    Costs (mcycles i (taken i s) - (encode i).length) s t := by
  rcases exec_costs s h with hcosts | ⟨-, hraised⟩ | ⟨-, hraised⟩ | ⟨op, -, rfl⟩
  · exact hcosts
  · simp [ht] at hraised
  · simp [ht] at hraised
  · cases ht

theorem stepEntry_fetch_frame {s u : State} (h : stepEntry s = .fetch u) : u.cycles = s.cycles ∧ u.f = s.f := by
  rcases stepEntry_cases s with ⟨_, -, -, he⟩ | ⟨-, -, he⟩ | he <;> rw [he] at h <;> cases h
  exact ⟨rfl, rfl⟩

/-- Settles O56: one M-cycle for each byte, and the rest of the table's number for the execution. -/
theorem stepTiming : Obligations.StepTiming := by
  intro s u t i n hs hentry hdecode hop hoperands hstep ht
  obtain ⟨hcycles, hf⟩ := stepEntry_fetch_frame hentry
  have hlength : (encode i).length = n + 1 := by
    have hbytes := congrArg List.length (encodeOfDecode _ _ _ hdecode).2
    rwa [List.length_cons, bytesFrom_length, List.append_nil, eq_comm] at hbytes
  rw [step_of_decode u hs hentry hdecode hop hoperands] at hstep
  have hcosts := (exec_costs_of_not_faulted hstep ht).cycles
  rw [taken_congr ((State.fetching_f u _ _ _).trans hf), State.fetching_cycles, hcycles, hlength] at hcosts
  have hle := encode_length_le_mcycles i (taken i s)
  omega

end Sys2Proof.Machine
end

section
/-! PROOFS. The jumps (spec/45_control.md R260 to R265). -/

namespace Sys2Proof.Machine

variable (s : State)

/-- The model adds the displacement modulo 65536, as R264 says it in integers. -/
theorem relTarget_eq {e : Byte} {target : Word} (h : (target.toNat : Int) = ((s.pc.toNat : Int) + e.toInt) % 65536) :
    relTarget e s = target := by
  have hsum : ((relTarget e s).toNat : Int) = ((s.pc.toNat : Int) + (e.signExtend 16).toInt) % 65536 := by
    rw [relTarget, sext16, BitVec.toNat_add, BitVec.toInt_eq_toNat_bmod, Int.bmod_def]
    split <;> omega
  rw [BitVec.toInt_signExtend_of_le (by decide), ← h] at hsum
  exact BitVec.eq_of_toNat_eq (Int.ofNat.inj hsum)

theorem waits_jumpTo {target : Word} (h : s.cfg.selfJumpCheck = false ∨ target ≠ s.opaddr) :
    Waits 1 { s with pc := target } (jumpTo target s) := by
  rw [jumpTo_plain s h]
  exact waits_tick _

/-- Settles O50: each jump answers `jumpTo` of its target, or the state as it is where its condition does not hold. -/
theorem jumpResults : Obligations.JumpResults := by
  intro s nn e cc
  refine ⟨rfl, rfl, rfl, rfl, rfl, fun hc => ?_, fun h => ?_, fun target ht h => ?_⟩
  · have hskip := Bool.eq_false_iff.mp hc
    exact ⟨if_neg hskip, if_neg hskip⟩
  · exact ⟨jumpTo nn s, waits_jumpTo s h, rfl, fun hc => if_pos hc⟩
  · rw [← relTarget_eq s ht] at h ⊢
    exact ⟨jumpTo (relTarget e s) s, waits_jumpTo s h, rfl, fun hc => if_pos hc⟩

end Sys2Proof.Machine
end

section
/-! PROOFS. The 8-bit loads and stores (spec/40_load8.md R130 to R148). -/

namespace Sys2Proof.Machine

variable (s : State)

theorem State.setR8_frame (r : Reg8) (v : Byte) :
    s.setR8 r v =
      { s with
        a := (s.setR8 r v).a, b := (s.setR8 r v).b, c := (s.setR8 r v).c, d := (s.setR8 r v).d, e := (s.setR8 r v).e
        h := (s.setR8 r v).h, l := (s.setR8 r v).l } := by
  cases r <;> rfl

theorem OnlyTime.hl {n : Nat} {s t : State} (q : OnlyTime n s t) : t.hl = s.hl := by rw [State.hl, q.h, q.l, State.hl]

theorem Flow.finish_of_ok {α : Type} {x : Flow α} {v : α} {u : State} (h : x = .ok v u) (k : α → State → State) :
    x.finish k = .next (k v u) := by
  rw [h, Flow.finish_ok]

/-- The loads from `0xFF00 + n` (R141, R143). -/
theorem loadA_highPage_readable {n : Byte} {a : Word} (ha : a.toNat = 0xFF00 + n.toNat) (h : readable a s = true) :
    ∃ v u, Reads a s v u ∧ loadA (highPage n) s = .next { u with a := v } := by
  rw [highPage_of_toNat ha]
  exact loadA_readable s h

/-- Settles O39: each load answers what its read M-cycle leaves, with the byte in the destination; the two that step HL add to
the HL that the read has left alone. -/
theorem registerLoads : Obligations.RegisterLoads := by
  intro s
  refine ⟨r8_setR8 s, fun r v => ⟨_, rfl, s.setR8_frame r v⟩, fun _ _ => rfl, fun _ _ => rfl, fun h => ?_,
    loadA_readable s, loadA_readable s, fun _ => loadA_readable s, fun _ => loadA_highPage_readable s,
    fun _ _ => loadA_highPage_readable s⟩
  obtain ⟨v, u, hread, hreads⟩ := reads_of_readable s h
  have hfinish := Flow.finish_of_ok hread
  have hhl : u.hl = s.hl := OnlyTime.hl (n := 1) (memRead_frame s hread)
  exact ⟨v, u, hreads, fun _ => hfinish _, ⟨_, hfinish _, rfl, by rw [State.hl_setHl, hhl]⟩,
    ⟨_, hfinish _, rfl, by rw [State.hl_setHl, hhl]⟩⟩

/-- A meaning that is one write M-cycle completes. -/
theorem next_memWrite_stores (a : Word) (v : Byte) : ∃ t, (.next (memWrite a v s) : Result) = .next t ∧ Stores a v s t :=
  ⟨_, rfl, stores_memWrite s a v⟩

/-- The stores to `0xFF00 + n` (R142, R144). -/
theorem next_memWrite_highPage_stores {n : Byte} {a : Word} (ha : a.toNat = 0xFF00 + n.toNat) (v : Byte) :
    ∃ t, (.next (memWrite (highPage n) v s) : Result) = .next t ∧ Stores a v s t := by
  rw [highPage_of_toNat ha]
  exact next_memWrite_stores s a v

/-- Settles O40: each store is its write M-cycle, after which the last two step the HL that the write has left alone. -/
theorem byteStores : Obligations.ByteStores := by
  intro s
  exact ⟨fun r => next_memWrite_stores s s.hl (s.r8 r), fun n => next_memWrite_stores s s.hl n,
    next_memWrite_stores s s.bc s.a, next_memWrite_stores s s.de s.a, fun nn => next_memWrite_stores s nn s.a,
    fun _ ha => next_memWrite_highPage_stores s ha s.a, fun _ _ ha => next_memWrite_highPage_stores s ha s.a,
    ⟨_, _, rfl, stores_memWrite s s.hl s.a, rfl, by rw [State.hl_setHl, memWrite_hl]⟩,
    ⟨_, _, rfl, stores_memWrite s s.hl s.a, rfl, by rw [State.hl_setHl, memWrite_hl]⟩⟩

end Sys2Proof.Machine
end

section
/-! PROOFS. The 16-bit loads and the stack (spec/41_load16_stack.md R160 to R169). -/

namespace Sys2Proof.Machine

variable (s : State)

/-! ### A pop in plain memory -/

/-- `sp` and memory have no part in the passing of time. -/
theorem ticks_setSpFlat (n : Nat) (x : Word) (m : Memory) :
    ticks n { s with sp := x, flat := m } = { ticks n s with sp := x, flat := m } := by
  induction n generalizing s with
  | zero => rfl
  | succ n ih => rw [ticks_succ, ticks_succ, tick_setSpFlat, ih]

theorem pop8_plain (h : plainAt s s.sp = true) : pop8 s = .ok (s.flat.read s.sp) { tick s with sp := s.sp + 1 } := by
  rw [pop8, memRead_plain s s.sp h, Flow.map_ok, tick_sp]

/-- A pop from plain memory answers the two bytes that memory holds, two ticks later (R161). -/
theorem pop16_plain (hlo : plainAt s s.sp = true) (hhi : plainAt s (s.sp + 1) = true) :
    pop16 s = .ok (word (s.flat.read (s.sp + 1)) (s.flat.read s.sp)) { ticks 2 s with sp := s.sp + 2 } := by
  have hnext := pop8_plain { tick s with sp := s.sp + 1 } ((plainAt_tick s (s.sp + 1)).trans hhi)
  rw [tick_setSpFlat (tick s) (s.sp + 1) (tick s).flat, tick_flat] at hnext
  rw [pop16, pop8_plain s hlo, Flow.bind_ok, hnext, Flow.map_ok, BitVec.add_assoc, ← tick_flat s, ← tick_flat (tick s)]
  rfl

/-- Memory after the two writes of a push holds the pushed word at the new top of the stack. -/
theorem word_read_pushed {m : Memory} (hm : m.wf = true) {lo hi : Word} (hne : hi ≠ lo) (v : Word) :
    word (((m.write hi (hiByte v)).write lo (loByte v)).read hi) (((m.write hi (hiByte v)).write lo (loByte v)).read lo) =
      v := by
  rw [Memory.read_write_same (Memory.wf_write hm hi (hiByte v)), Memory.read_write_ne hne, Memory.read_write_same hm,
    word_hiByte_loByte]

theorem plainAt_ticks (n : Nat) (a : Word) : plainAt (ticks n s) a = plainAt s a := by
  simp only [plainAt, ticks_cfg, ticks_registry]

/-- Settles O26: `flat` holds the pushed word where the pop reads it, and the two ticks of each are four, in which `sp` has no
part. -/
theorem popAfterPush : Obligations.PopAfterPush := by
  intro s v hwf hhi hlo
  have hup1 : s.sp - 2 + 1 = s.sp - 1 := by bv_omega
  have hup2 : s.sp - 2 + 2 = s.sp := by bv_omega
  have hne : s.sp - 1 ≠ s.sp - 2 := by bv_omega
  have hsp : (ticks 4 s).sp = s.sp := (onlyTime_ticks s 4).sp
  rw [push16_plain s v hhi hlo, pop16_plain]
  · simp only [hup1, hup2, word_read_pushed hwf hne, ticks_setSpFlat, hsp]
    rfl
  · exact (plainAt_ticks s 2 _).trans hlo
  · exact (plainAt_ticks s 2 _).trans (hup1.symm ▸ hhi)

/-! ### The instructions -/

/-- Settles O41: each load is the write of one pair, with the internal or write M-cycles that its meaning names. -/
theorem wordLoads : Obligations.WordLoads := fun s nn =>
  ⟨rfl, rfl, rfl, rfl, ⟨_, rfl, waits_tick { s with sp := s.hl }⟩,
    ⟨_, _, rfl, stores_memWrite s nn (loByte s.sp), stores_memWrite _ (nn + 1) (hiByte s.sp)⟩⟩

/-- PUSH pushes the pair as it was before the internal M-cycle. -/
theorem exec_pushQq (qq : RegStk) : exec (.pushQq qq) s = .next (push16 (s.stk qq) (tick s)) := by
  rw [← tick_stk s qq]
  rfl

theorem push16_tick_cpu (v : Word) : (push16 v (tick s)).cpu = { s.cpu with sp := s.sp - 2 } := by
  rw [push16_cpu, tick_cpu, tick_sp]

/-- Settles O42: PUSH AF is the PUSH of the pair AF, which already masks F. -/
theorem pushResults : Obligations.PushResults := by
  intro s
  have hpush (qq : RegStk) : ∃ u t, exec (.pushQq qq) s = .next t ∧ Waits 1 s u ∧ Pushes (s.stk qq) u t ∧
      t.cpu = { s.cpu with sp := s.sp - 2 } :=
    ⟨_, _, exec_pushQq s qq, waits_tick s, pushes_push16 (tick s) (s.stk qq), push16_tick_cpu s (s.stk qq)⟩
  exact ⟨hpush, hpush .af⟩

/-- Settles O43: each POP writes its pair in the state that the two reads leave. -/
theorem popResults : Obligations.PopResults := by
  intro s hs
  obtain ⟨v, u, hpop, hpops⟩ := pops_of_poppable s hs
  have hfinish := Flow.finish_of_ok hpop
  exact ⟨v, u, hpops, hfinish fun v s1 => s1.setStk .bc v, hfinish fun v s1 => s1.setStk .de v,
    hfinish fun v s1 => s1.setStk .hl v, hfinish fun v s1 => s1.setAf v⟩

end Sys2Proof.Machine
end

section
/-! PROOFS. The 8-bit arithmetic and logic instructions (spec/42_alu8.md R180 to R214). -/

namespace Sys2Proof.Machine

/-! ### The three operand forms -/

/-- An operation completes in its three forms when each ends with the same `k` of the operand and of the state in which it is at
hand. -/
theorem operandForms_of_finish {onReg : Reg8 → Instr} {onImm : Byte → Instr} {onHl : Instr}
    {post : State → Byte → State → Prop} (k : Byte → State → State) (hpost : ∀ u v, post u v (k v u))
    (hreg : ∀ r s, exec (onReg r) s = .next (k (s.r8 r) s) := by intros; rfl)
    (himm : ∀ n s, exec (onImm n) s = .next (k n s) := by intros; rfl)
    (hhl : ∀ s, exec onHl s = (memRead s.hl s).finish k := by intros; rfl) : OperandForms onReg onImm onHl post := by
  refine fun s => ⟨fun r => ⟨_, hreg r s, hpost s _⟩, fun n => ⟨_, himm n s, hpost s n⟩, fun h => ?_⟩
  obtain ⟨v, u, hread, hreads⟩ := reads_of_readable s h
  exact ⟨v, u, k v u, hreads, (hhl s).trans (Flow.finish_of_ok hread k), hpost u v⟩

/-! ### Addition and subtraction -/

theorem add8_z (x y : Byte) (cin : Bool) : (add8 x y cin).z = decide ((x.toNat + y.toNat + cin.toNat) % 256 = 0) :=
  ofNat8_eq_zero _

theorem flagsAre_setAcc_add8 (u : State) (v : Byte) (cin : Bool) :
    FlagsAre (u.setAcc (add8 u.a v cin)) (decide ((u.a.toNat + v.toNat + cin.toNat) % 256 = 0)) false
      (decide (15 < u.a.toNat % 16 + v.toNat % 16 + cin.toNat)) (decide (255 < u.a.toNat + v.toNat + cin.toNat)) := by
  rw [← add8_z]
  exact flagsAre_setAcc u _

/-- Settles O31: the three forms of each write the outcome of `add8` to A and the flags. -/
theorem addAdcResults : Obligations.AddAdcResults :=
  ⟨operandForms_of_finish (fun v u => u.setAcc (add8 u.a v false)) fun u v =>
      ⟨writesAccFlags_setAcc u _, add8_r u.a v false, flagsAre_setAcc_add8 u v false⟩,
    operandForms_of_finish (fun v u => u.setAcc (add8 u.a v u.flagC)) fun u v =>
      ⟨writesAccFlags_setAcc u _, add8_r u.a v u.flagC, flagsAre_setAcc_add8 u v u.flagC⟩⟩

theorem sub8_r_noBorrow (x y : Byte) : (sub8 x y false).r.toNat = (x.toNat + 256 - y.toNat) % 256 := by
  have hx := x.isLt
  have hy := y.isLt
  rw [sub8_r, Bool.toNat_false]
  omega

/-- Without a borrow in, the difference is 0 of equal operands only. -/
theorem sub8_z_noBorrow (x y : Byte) : (sub8 x y false).z = decide (x = y) := by
  have hr := sub8_r_noBorrow x y
  have hz : (sub8 x y false).r = 0 ↔ x = y := by bv_omega
  exact decide_eq_decide.mpr hz

theorem flagsAre_setAcc_sub8 (u : State) (v : Byte) :
    FlagsAre (u.setAcc (sub8 u.a v false)) (decide (u.a = v)) true (decide (u.a.toNat % 16 < v.toNat % 16))
      (decide (u.a.toNat < v.toNat)) := by
  rw [← sub8_z_noBorrow]
  exact flagsAre_setAcc u _

/-- Settles O32: the three forms of each write the outcome of `sub8` to A and the flags. -/
theorem subSbcResults : Obligations.SubSbcResults :=
  ⟨operandForms_of_finish (fun v u => u.setAcc (sub8 u.a v false)) fun u v =>
      ⟨writesAccFlags_setAcc u _, sub8_r_noBorrow u.a v, flagsAre_setAcc_sub8 u v⟩,
    operandForms_of_finish (fun v u => u.setAcc (sub8 u.a v u.flagC)) fun u v =>
      ⟨writesAccFlags_setAcc u _, sub8_r u.a v u.flagC, flagsAre_setAcc u _⟩⟩

/-- Settles O33: CP writes the flags of the `sub8` that SUB writes whole. -/
theorem compareResults : Obligations.CompareResults :=
  operandForms_of_finish (fun v u => u.setFlagsOf (sub8 u.a v false)) fun u v =>
    ⟨writesFlags_setFlagsOf u _, flagsAre_setAcc_sub8 u v⟩

/-! ### Logic -/

/-- Settles O34: the three forms of each write the outcome of `and8`, `xor8` or `or8` to A and the flags. -/
theorem logicResults : Obligations.LogicResults :=
  ⟨operandForms_of_finish (fun v u => u.setAcc (and8 u.a v)) fun u _ =>
      ⟨writesAccFlags_setAcc u _, fun _ => BitVec.getLsbD_and, flagsAre_setAcc u _⟩,
    operandForms_of_finish (fun v u => u.setAcc (xor8 u.a v)) fun u _ =>
      ⟨writesAccFlags_setAcc u _, fun _ => BitVec.getLsbD_xor, flagsAre_setAcc u _⟩,
    operandForms_of_finish (fun v u => u.setAcc (or8 u.a v)) fun u _ =>
      ⟨writesAccFlags_setAcc u _, fun _ => BitVec.getLsbD_or, flagsAre_setAcc u _⟩⟩

/-! ### INC and DEC -/

theorem and_0x0F_toNat (v : Byte) : (v &&& 0x0F).toNat = v.toNat % 16 := Nat.and_two_pow_sub_one_eq_mod v.toNat 4

theorem and_0x0F_beq (v k : Byte) : (v &&& 0x0F == k) = decide (v.toNat % 16 = k.toNat) :=
  decide_eq_decide.mpr (by rw [← BitVec.toNat_inj, and_0x0F_toNat])

theorem inc8_eq (v : Byte) (c : Bool) :
    inc8 v c = { r := v + 1, z := decide (v = 0xFF), n := false, h := decide (v.toNat % 16 = 15), c := c } := by
  have hz : (v + 1 == 0) = decide (v = 0xFF) := decide_eq_decide.mpr (by bv_omega)
  rw [inc8, hz, and_0x0F_beq]
  rfl

theorem dec8_eq (v : Byte) (c : Bool) :
    dec8 v c = { r := v - 1, z := decide (v = 0x01), n := true, h := decide (v.toNat % 16 = 0), c := c } := by
  have hz : (v - 1 == 0) = decide (v = 0x01) := decide_eq_decide.mpr (by bv_omega)
  rw [dec8, hz, and_0x0F_beq]
  rfl

/-- The instruction is a read-modify-write of the byte at HL whose outcome depends on the state through C alone. -/
theorem exec_rmwHl_readable {i : Instr} {s : State} (op : Byte → Bool → AluOut)
    (hi : exec i s = rmwHl (fun v s1 => op v s1.flagC) s) (h : readable s.hl s = true) :
    ∃ v u m t, exec i s = .next t ∧ Reads s.hl s v u ∧ Stores s.hl (op v s.flagC).r u m ∧ WritesFlags m t ∧
      FlagsAre t (op v s.flagC).z (op v s.flagC).n (op v s.flagC).h (op v s.flagC).c := by
  obtain ⟨v, u, hreads, hexec⟩ := rmwHl_readable s (op := fun v s1 => op v s1.flagC) h
  have hc : u.flagC = s.flagC := by
    obtain ⟨-, htime, -⟩ := hreads
    rw [State.flagC, htime.f, State.flagC]
  rw [hc] at hexec
  exact ⟨v, u, _, _, hi.trans hexec, hreads, stores_memWrite u s.hl _, writesFlags_setFlagsOf _ _, flagsAre_setFlagsOf _ _⟩

/-- Settles O35: each form writes the outcome of `inc8` or `dec8`, which pass on the C they were given. -/
theorem incDecResults : Obligations.IncDecResults := by
  intro s
  refine ⟨fun r => ⟨s.setR8Alu r (inc8 (s.r8 r) s.flagC), rfl, writesRegFlags_setR8Alu s r _, ?_, ?_⟩,
    fun r => ⟨s.setR8Alu r (dec8 (s.r8 r) s.flagC), rfl, writesRegFlags_setR8Alu s r _, ?_, ?_⟩, fun h => ⟨?_, ?_⟩⟩
  · rw [r8_setR8Alu, inc8, BitVec.toNat_add]
    rfl
  · rw [inc8_eq]
    exact flagsAre_setR8Alu s r _
  · rw [r8_setR8Alu, dec8, BitVec.toNat_sub, Nat.add_comm]
    rfl
  · rw [dec8_eq]
    exact flagsAre_setR8Alu s r _
  · simpa only [inc8_eq] using exec_rmwHl_readable (i := .incHl) inc8 rfl h
  · simpa only [dec8_eq] using exec_rmwHl_readable (i := .decHl) dec8 rfl h

/-! ### DAA -/

theorem daaAdjust_toNat_of_add (a : Byte) (h c : Bool) :
    (daaAdjust a false h c).toNat =
      (if h = true ∨ 9 < a.toNat % 16 then 0x06 else 0) + (if c = true ∨ 0x99 < a.toNat then 0x60 else 0) := by
  simp only [daaAdjust, and_0x0F_toNat, Bool.or_eq_true, decide_eq_true_eq, gt_iff_lt, Bool.false_eq_true, if_false]
  split_ifs <;> rfl

theorem daaAdjust_toNat_of_sub (a : Byte) (h c : Bool) :
    (daaAdjust a true h c).toNat = (if h = true then 0x06 else 0) + (if c = true then 0x60 else 0) := by
  cases h <;> cases c <;> rfl

theorem daa8_r (a : Byte) (n h c : Bool) :
    (daa8 a n h c).r.toNat =
      (if n = true then a.toNat + 512 - (if h = true then 0x06 else 0) - (if c = true then 0x60 else 0)
      else
        a.toNat + (if h = true ∨ 9 < a.toNat % 16 then 0x06 else 0) +
          (if c = true ∨ 0x99 < a.toNat then 0x60 else 0)) % 256 := by
  cases n with
  | false =>
    change (a + daaAdjust a false h c).toNat = _
    rw [BitVec.toNat_add, daaAdjust_toNat_of_add, ← Nat.add_assoc]
    rfl
  | true =>
    change (a - daaAdjust a true h c).toNat = _
    rw [BitVec.toNat_sub, daaAdjust_toNat_of_sub, if_pos rfl]
    split_ifs <;> omega

/-- Settles O36: DAA writes the outcome of `daa8` to A and the flags. -/
theorem daaResult : Obligations.DaaResult := fun s =>
  ⟨s.setAcc (daa8 s.a s.flagN s.flagH s.flagC), rfl, writesAccFlags_setAcc s _, daa8_r _ _ _ _, flagsAre_setAcc s _⟩

/-! ### The sum of BCD codes -/

/-- The BCD code of a number below 100. -/
def bcd (x : Nat) : Nat := x / 10 * 16 + x % 10

theorem bcd_lt {x : Nat} (h : x < 100) : bcd x < 0x9A := by
  unfold bcd
  omega

theorem ofNat8_bcd_toNat {x : Nat} (h : x < 100) : (BitVec.ofNat 8 (bcd x)).toNat = bcd x := by
  rw [BitVec.toNat_ofNat]
  exact Nat.mod_eq_of_lt ((bcd_lt h).trans (by decide))

/-- The low digits of two BCD codes carry where their binary sum has a half carry or leaves a low nibble above 9. -/
theorem bcd_lowCarry_iff (x y : Nat) :
    15 < bcd x % 16 + bcd y % 16 ∨ 9 < (bcd x + bcd y) % 256 % 16 ↔ 10 ≤ x % 10 + y % 10 := by
  unfold bcd
  omega

theorem le_bcd_add_bcd_iff (x y : Nat) : 0x9A ≤ bcd x + bcd y ↔ 100 ≤ x + y := by
  unfold bcd
  constructor
  · have htens : x + y < 100 → x / 10 + y / 10 ≤ 9 := by omega
    omega
  · have htens : 100 ≤ x + y → 9 ≤ x / 10 + y / 10 := by omega
    omega

/-- Two numbers add up to 100 or more where the binary sum of their BCD codes has a carry or is above 0x99. -/
theorem bcd_carry_iff {x y : Nat} (hx : x < 100) (hy : y < 100) :
    255 < bcd x + bcd y ∨ 0x99 < (bcd x + bcd y) % 256 ↔ 100 ≤ x + y := by
  rw [← le_bcd_add_bcd_iff]
  have hxlt := bcd_lt hx
  have hylt := bcd_lt hy
  omega

theorem bcd_add {x y : Nat} (hx : x < 100) (hy : y < 100) :
    ((bcd x + bcd y) % 256 + (if 10 ≤ x % 10 + y % 10 then 0x06 else 0) + (if 100 ≤ x + y then 0x60 else 0)) % 256 =
      bcd ((x + y) % 100) := by
  unfold bcd
  split_ifs <;> omega

/-- Settles O37: by the results of ADD and DAA, and the arithmetic of BCD codes. -/
theorem daaMakesBcdSum : Obligations.DaaMakesBcdSum := by
  intro s x y hx hy hs
  have ha : s.a.toNat = bcd x := (congrArg BitVec.toNat hs).trans (ofNat8_bcd_toNat hx)
  obtain ⟨haddForms, -⟩ := addAdcResults
  obtain ⟨-, haddImm, -⟩ := haddForms s
  obtain ⟨u, hadd, -, hua, -, hn, hh, hc⟩ := haddImm (BitVec.ofNat 8 (bcd y))
  obtain ⟨t, hdaa, -, hta, -, -, -, htc⟩ := daaResult u
  rw [ha, ofNat8_bcd_toNat hy] at hua hh hc
  simp only [hn, hh, hc, hua, Bool.false_eq_true, if_false, decide_eq_true_eq, bcd_lowCarry_iff, bcd_carry_iff hx hy,
    bcd_add hx hy] at hta
  refine ⟨u, t, hadd, hdaa, BitVec.eq_of_toNat_eq ?_, ?_⟩
  · rw [hta, bcd, Nat.mod_mod_of_dvd _ (by decide : 10 ∣ 100), BitVec.toNat_ofNat]
    omega
  · rw [htc, hn, hc, hua, Bool.not_false, Bool.true_and, ← Bool.decide_or]
    exact decide_eq_decide.mpr (bcd_carry_iff hx hy)

/-! ### CPL, SCF and CCF -/

/-- Settles O38: each writes the flags through `setFlags`, and CPL A besides. -/
theorem complementAndCarryResults : Obligations.ComplementAndCarryResults := fun s =>
  ⟨⟨s.setAcc { r := ~~~s.a, z := s.flagZ, n := true, h := true, c := s.flagC }, rfl, writesAccFlags_setAcc s _,
      BitVec.toNat_not, flagsAre_setAcc s _⟩,
    ⟨_, rfl, writesFlags_setFlags s _ _ _ _, flagsAre_setFlags s _ _ _ _⟩,
    ⟨_, rfl, writesFlags_setFlags s _ _ _ _, flagsAre_setFlags s _ _ _ _⟩⟩

end Sys2Proof.Machine
end

section
/-! PROOFS. The 16-bit arithmetic and LD HL,SP+e (spec/43_alu16.md R220 to R224, spec/41_load16_stack.md R165). -/

namespace Sys2Proof.Machine

variable (s : State)

/-! ### What the two additions compute -/

theorem add16_r (x y : Word) : (add16 x y).r.toNat = (x.toNat + y.toNat) % 65536 := BitVec.toNat_ofNat ..

/-- Adding the sign-extended displacement modulo 65536 is the signed sum modulo 65536 (R220). -/
theorem addSp_r (sp : Word) (e : Byte) : ((addSp sp e).r.toNat : Int) = ((sp.toNat : Int) + e.toInt) % 65536 := by
  have hext : (sext16 e).toInt = e.toInt := BitVec.toInt_signExtend_of_le (by decide)
  rw [addSp, BitVec.toNat_add, ← hext, BitVec.toInt_eq_toNat_bmod, Int.bmod_def]
  split <;> omega

/-! ### What the instructions write -/

/-- A meaning that writes a pair and spends one internal M-cycle completes, and the pair reads back as written. -/
theorem next_internal_setR16 (rr : Reg16) {v : Word} {n : Nat} (hv : v.toNat = n) :
    ∃ w t, (.next (internal (s.setR16 rr v)) : Result) = .next t ∧ Waits 1 w t ∧ w = s.setR16 rr (w.r16 rr) ∧
      (w.r16 rr).toNat = n := by
  refine ⟨s.setR16 rr v, _, rfl, waits_tick _, ?_, ?_⟩
  · rw [State.r16_setR16_same]
  · rw [State.r16_setR16_same, hv]

/-- `sp` has no part in the passing of time. -/
theorem ticks_setSp (n : Nat) (x : Word) : ticks n { s with sp := x } = { ticks n s with sp := x } := by
  refine (ticks_setSpFlat s n x s.flat).trans ?_
  rw [← ticks_flat s n]

/-- ADD SP,e writes `sp` after its two internal M-cycles, which is the same as before them. -/
theorem exec_addSpE (e : Byte) :
    exec (.addSpE e) s =
      .next (ticks 2 { s.setFlags false false (addSp s.sp e).h (addSp s.sp e).c with sp := (addSp s.sp e).r }) := by
  rw [ticks_setSp]
  rfl

/-- Settles O45: ADD HL,rr writes the outcome of `add16` to HL and the flags, passing on the Z it found; INC and DEC write
their pair alone, and subtracting 1 is adding 65535. -/
theorem wordArithmetic : Obligations.WordArithmetic := by
  intro s rr
  refine ⟨⟨(s.setFlags s.flagZ false _ _).setHl _, _, rfl, waits_tick _, rfl, ?_, s.setFlags_lowNibble _ _ _ _,
    flagsAre_setFlags s _ _ _ _⟩, next_internal_setR16 s rr ?_, next_internal_setR16 s rr ?_⟩
  · rw [State.hl_setHl, add16_r]
  · exact BitVec.toNat_add (s.r16 rr) 1
  · rw [BitVec.toNat_sub, Nat.add_comm]
    rfl

/-- Settles O46: both write the outcome of `addSp`, one to `sp` and one to HL, and its flags. -/
theorem stackPointerPlusByte : Obligations.StackPointerPlusByte := by
  intro s e
  have hlow := s.setFlags_lowNibble false false (addSp s.sp e).h (addSp s.sp e).c
  have hflags := flagsAre_setFlags s false false (addSp s.sp e).h (addSp s.sp e).c
  refine ⟨⟨_, _, exec_addSpE s e, waits_ticks _ 2, rfl, addSp_r s.sp e, hlow, hflags⟩,
    ⟨(s.setFlags false false _ _).setHl _, _, rfl, waits_tick _, rfl, ?_, hlow, hflags⟩⟩
  rw [State.hl_setHl, addSp_r]

end Sys2Proof.Machine
end

section
/-! PROOFS. The rotates, the shifts, SWAP and the bit instructions (spec/44_rotate_shift_bit.md R230 to R256). -/

namespace Sys2Proof.Machine

/-! ### Bits of a byte in arithmetic -/

theorem bitByte_toNat (b : Bool) : (bitByte b).toNat = b.toNat := by cases b <;> rfl

theorem bitByte_toNat_lt (b : Bool) : (bitByte b).toNat < 2 ^ 1 := by
  rw [bitByte_toNat]
  exact b.toNat_lt

theorem getLsbD_seven (v : Byte) : v.getLsbD 7 = decide (128 ≤ v.toNat) := v.msb_eq_decide

theorem getLsbD_zero_eq (v : Byte) : v.getLsbD 0 = decide (v.toNat % 2 = 1) := Nat.testBit_zero v.toNat

theorem toNat_getLsbD_seven (v : Byte) : (v.getLsbD 7).toNat = v.toNat / 128 :=
  (Nat.toNat_testBit v.toNat 7).trans (Nat.mod_eq_of_lt (Nat.div_lt_of_lt_mul v.isLt))

theorem toNat_getLsbD_zero (v : Byte) : (v.getLsbD 0).toNat = v.toNat % 2 :=
  (Nat.toNat_testBit v.toNat 0).trans (by rw [Nat.pow_zero, Nat.div_one])

theorem shl_toNat (v : Byte) (k : Nat) : (v <<< k).toNat = 2 ^ k * v.toNat % 256 := by
  rw [BitVec.toNat_shiftLeft, Nat.shiftLeft_eq, Nat.mul_comm]

theorem shr_toNat (v : Byte) (k : Nat) : (v >>> k).toNat = v.toNat / 2 ^ k := by
  rw [BitVec.toNat_ushiftRight, Nat.shiftRight_eq_div_pow]

/-- The `or` of a byte shifted left and of a byte that fits into the freed places is their sum. -/
theorem shl_or_toNat (hi : Byte) {lo : Byte} {k : Nat} (h : lo.toNat < 2 ^ k) :
    (hi <<< k ||| lo).toNat = 2 ^ k * hi.toNat % 256 + lo.toNat := by
  have hdisjoint : hi <<< k &&& lo = 0 := by
    refine BitVec.eq_of_getLsbD_eq fun i _ => ?_
    refine BitVec.getLsbD_and.trans ?_
    by_cases hik : i < k
    · simp [BitVec.getLsbD_shiftLeft, hik]
    · have hlo : lo.getLsbD i = false :=
        Nat.testBit_lt_two_pow (h.trans_le (Nat.pow_le_pow_right (by decide) (Nat.le_of_not_lt hik)))
      simp [hlo]
  rw [← BitVec.add_eq_or_of_and_eq_zero _ _ hdisjoint, BitVec.toNat_add_of_and_eq_zero hdisjoint, shl_toNat]

/-- A byte shifted right by one place, with `b` shifted in from the left. -/
theorem shr_or_bit_toNat (v : Byte) (b : Bool) : (v >>> 1 ||| bitByte b <<< 7).toNat = v.toNat / 2 + 128 * b.toNat := by
  have hv := v.isLt
  have hb := b.toNat_lt
  have hlo : (v >>> 1).toNat < 2 ^ 7 := by
    rw [shr_toNat]
    omega
  rw [BitVec.or_comm, shl_or_toNat _ hlo, shr_toNat, bitByte_toNat]
  omega

/-- A byte shifted left by one place, with `b` shifted in from the right. -/
theorem shl_or_bit_toNat (v : Byte) (b : Bool) : (v <<< 1 ||| bitByte b).toNat = 2 * v.toNat % 256 + b.toNat := by
  rw [shl_or_toNat v (bitByte_toNat_lt b), bitByte_toNat, Nat.pow_one]

theorem and_0x80_eq (v : Byte) : v &&& (0x80 : Byte) = bitByte (v.getLsbD 7) <<< 7 := by
  refine (v.and_twoPow 7).trans ?_
  cases v.getLsbD 7 <;> rfl

/-! ### The rotates and shifts in arithmetic -/

/-- The rotate or shift leaves, from the value and the old carry as numbers, this result and this new carry (R234). -/
structure RotFn.Computes (f : RotFn) (result : Nat → Nat → Nat) (carry : Nat → Bool) : Prop where
  r : ∀ cf v, (f cf v).r.toNat = result v.toNat cf.toNat
  c : ∀ cf v, (f cf v).c = carry v.toNat

theorem rlc8_computes : RotFn.Computes rlc8 (fun v _ => 2 * v % 256 + v / 128) (fun v => decide (128 ≤ v)) where
  r _ v := (shl_or_bit_toNat v _).trans (by rw [toNat_getLsbD_seven])
  c _ := getLsbD_seven

theorem rrc8_computes : RotFn.Computes rrc8 (fun v _ => v / 2 + 128 * (v % 2)) (fun v => decide (v % 2 = 1)) where
  r _ v := (shr_or_bit_toNat v _).trans (by rw [toNat_getLsbD_zero])
  c _ := getLsbD_zero_eq

theorem rl8_computes : RotFn.Computes rl8 (fun v c => 2 * v % 256 + c) (fun v => decide (128 ≤ v)) where
  r cf v := shl_or_bit_toNat v cf
  c _ := getLsbD_seven

theorem rr8_computes : RotFn.Computes rr8 (fun v c => v / 2 + 128 * c) (fun v => decide (v % 2 = 1)) where
  r cf v := shr_or_bit_toNat v cf
  c _ := getLsbD_zero_eq

theorem sla8_computes : RotFn.Computes sla8 (fun v _ => 2 * v % 256) (fun v => decide (128 ≤ v)) where
  r _ v := shl_toNat v 1
  c _ := getLsbD_seven

theorem sra8_computes : RotFn.Computes sra8 (fun v _ => v / 2 + 128 * (v / 128)) (fun v => decide (v % 2 = 1)) where
  r _ v := by
    rw [sra8, and_0x80_eq, shr_or_bit_toNat, toNat_getLsbD_seven]
  c _ := getLsbD_zero_eq

theorem swap8_computes : RotFn.Computes swap8 (fun v _ => 16 * (v % 16) + v / 16) (fun _ => false) where
  r _ v := by
    have hv := v.isLt
    have hlo : (v >>> 4).toNat < 2 ^ 4 := by
      rw [shr_toNat]
      omega
    rw [swap8, shl_or_toNat v hlo, shr_toNat]
    omega
  c _ _ := rfl

theorem srl8_computes : RotFn.Computes srl8 (fun v _ => v / 2) (fun v => decide (v % 2 = 1)) where
  r _ v := shr_toNat v 1
  c _ := getLsbD_zero_eq

/-! ### The accumulator rotates -/

theorem rotA_eq_setAcc (f : RotFn) (s : State) :
    rotA f s = s.setAcc { r := (f s.flagC s.a).r, z := false, n := false, h := false, c := (f s.flagC s.a).c } := rfl

/-- An instruction that is `rotA` of a rotate writes its result to A and its carry to C, with Z = N = H = 0. -/
theorem exec_rotA {i : Instr} {s : State} {f : RotFn} {result : Nat → Nat → Nat} {carry : Nat → Bool}
    (hf : f.Computes result carry) (hi : exec i s = .next (rotA f s)) :
    ∃ t, exec i s = .next t ∧ WritesAccFlags s t ∧ t.a.toNat = result s.a.toNat s.flagC.toNat ∧
      FlagsAre t false false false (carry s.a.toNat) := by
  rw [rotA_eq_setAcc] at hi
  refine ⟨_, hi, writesAccFlags_setAcc s _, hf.r s.flagC s.a, ?_⟩
  rw [← hf.c s.flagC]
  exact flagsAre_setAcc s _

/-- Settles O47: each is `rotA` of the rotate of its CB-page namesake. -/
theorem accumulatorRotates : Obligations.AccumulatorRotates := fun _ =>
  ⟨exec_rotA rlc8_computes rfl, exec_rotA rrc8_computes rfl, exec_rotA rl8_computes rfl, exec_rotA rr8_computes rfl⟩

/-! ### The CB-page rotates and shifts -/

/-- The two instructions of the row are the two forms of `f`, and `f` computes what the row says. -/
structure RotRow.IsRowOf (row : RotRow) (f : RotFn) : Prop where
  computes : f.Computes row.result row.carry
  onReg : ∀ r s, exec (row.onReg r) s = .next (s.setR8Alu r (rotAlu f (s.r8 r) s)) := by intros; rfl
  onHl : ∀ s, exec row.onHl s = rmwHl (rotAlu f) s := by intros; rfl

theorem exists_isRowOf {row : RotRow} (h : row ∈ rotTable) : ∃ f, row.IsRowOf f := by
  simp only [rotTable, List.mem_cons, List.not_mem_nil, or_false] at h
  rcases h with rfl | rfl | rfl | rfl | rfl | rfl | rfl | rfl
  · exact ⟨rlc8, { computes := rlc8_computes }⟩
  · exact ⟨rrc8, { computes := rrc8_computes }⟩
  · exact ⟨rl8, { computes := rl8_computes }⟩
  · exact ⟨rr8, { computes := rr8_computes }⟩
  · exact ⟨sla8, { computes := sla8_computes }⟩
  · exact ⟨sra8, { computes := sra8_computes }⟩
  · exact ⟨swap8, { computes := swap8_computes }⟩
  · exact ⟨srl8, { computes := srl8_computes }⟩

/-- A rotate or shift with its flags, as a function of the value and the old carry. -/
def RotFn.alu (f : RotFn) (v : Byte) (cf : Bool) : AluOut :=
  { r := (f cf v).r, z := (f cf v).r == 0, n := false, h := false, c := (f cf v).c }

theorem rotAlu_eq_alu (f : RotFn) : rotAlu f = fun v s => f.alu v s.flagC := rfl

/-- Settles O48: the forms of a row write what the row's rotate or shift computes, the one to the register, the other to the byte
that its read M-cycle has answered. -/
theorem rotatesAndShifts : Obligations.RotatesAndShifts := by
  intro row hrow s
  obtain ⟨f, hf⟩ := exists_isRowOf hrow
  refine ⟨fun r => ⟨_, hf.onReg r s, writesRegFlags_setR8Alu s r _, ?_, ?_⟩, fun h => ?_⟩
  · rw [r8_setR8Alu]
    exact hf.computes.r s.flagC (s.r8 r)
  · rw [r8_setR8Alu, ← hf.computes.c s.flagC]
    exact flagsAre_setR8Alu s r _
  · have hhl := hf.onHl s
    rw [rotAlu_eq_alu] at hhl
    obtain ⟨v, u, m, t, hexec, hreads, hstores, hwrites, hflags⟩ := exec_rmwHl_readable f.alu hhl h
    refine ⟨v, u, _, m, t, hexec, hreads, hf.computes.r s.flagC v, hstores, hwrites, ?_⟩
    rw [← hf.computes.c s.flagC]
    exact hflags

/-! ### The bit instructions -/

theorem getLsbD_bitMask (b : BitVec 3) (k : Nat) : (bitMask b).getLsbD k = decide (k = b.toNat) := by
  have hb : b.toNat < 8 := b.isLt
  rw [bitMask, Nat.one_shiftLeft, BitVec.natCast_eq_ofNat, BitVec.getLsbD_ofNat, Nat.testBit_two_pow, ← Bool.decide_and]
  exact decide_eq_decide.mpr (by omega)

theorem getLsbD_resBit (b : BitVec 3) (v : Byte) (k : Nat) :
    (resBit b v).getLsbD k = (v.getLsbD k && decide (k ≠ b.toNat)) := by
  rw [resBit, BitVec.getLsbD_and, BitVec.getLsbD_not, getLsbD_bitMask, decide_not]
  by_cases hk : k < 8
  · rw [decide_eq_true hk, Bool.true_and]
  · rw [BitVec.getLsbD_of_ge v k (Nat.le_of_not_lt hk), Bool.false_and, Bool.false_and]

theorem getLsbD_setBit (b : BitVec 3) (v : Byte) (k : Nat) :
    (setBit b v).getLsbD k = (v.getLsbD k || decide (k = b.toNat)) := by
  rw [setBit, BitVec.getLsbD_or, getLsbD_bitMask]

/-- The write M-cycle of a read-modify-write goes to the HL that the read has left alone. -/
theorem updateHl_of_memRead {s u : State} {v : Byte} (h : memRead s.hl s = .ok v u) (f : Byte → Byte) :
    updateHl f s = .next (memWrite s.hl (f v) u) := by
  have hhl : u.hl = s.hl := OnlyTime.hl (n := 1) (memRead_frame s h)
  rw [← hhl]
  exact Flow.finish_of_ok h _

/-- Settles O49: BIT writes the flags through `setFlags`; RES and SET write the byte that `resBit` and `setBit` make. -/
theorem bitInstructions : Obligations.BitInstructions := by
  intro s b
  refine ⟨fun r => ⟨_, rfl, writesFlags_setFlags s _ _ _ _, flagsAre_setFlags s _ _ _ _⟩,
    fun r => ⟨s.setR8 r (resBit b (s.r8 r)), rfl, ?_, ?_⟩, fun r => ⟨s.setR8 r (setBit b (s.r8 r)), rfl, ?_, ?_⟩, fun h => ?_⟩
  · rw [State.r8_setR8_same]
  · rw [State.r8_setR8_same]
    exact getLsbD_resBit b (s.r8 r)
  · rw [State.r8_setR8_same]
  · rw [State.r8_setR8_same]
    exact getLsbD_setBit b (s.r8 r)
  obtain ⟨v, u, hread, hreads⟩ := reads_of_readable s h
  have hc : s.flagC = u.flagC := by
    obtain ⟨-, htime, -⟩ := hreads
    rw [State.flagC, State.flagC, htime.f]
  refine ⟨v, u, hreads, ⟨_, Flow.finish_of_ok hread _, writesFlags_setFlags u _ _ _ _, ?_⟩,
    ⟨resBit b v, _, updateHl_of_memRead hread _, stores_memWrite u s.hl _, getLsbD_resBit b v⟩,
    ⟨setBit b v, _, updateHl_of_memRead hread _, stores_memWrite u s.hl _, getLsbD_setBit b v⟩⟩
  rw [hc]
  exact flagsAre_setFlags u _ _ _ _

end Sys2Proof.Machine
end

section
/-! PROOFS. The self-jump check, the calls and the returns (spec/45_control.md R262, R266 to R271). -/

namespace Sys2Proof.Machine

variable (s : State)

/-! ### The self-jump check -/

/-- A jump and its taken conditional form alike raise the fault when their target is the jump's own address. -/
theorem jumpForms_self {target : Word} (cc : Cond) (hcheck : s.cfg.selfJumpCheck = true) (ht : target = s.opaddr) :
    (.next (jumpTo target s) : Result) = .next (raiseFault .selfJump s.opaddr s) ∧
      (s.cond cc = true →
        (if s.cond cc then .next (jumpTo target s) else .next s : Result) = .next (raiseFault .selfJump s.opaddr s)) := by
  rw [jumpTo_self s hcheck ht]
  exact ⟨rfl, fun hc => if_pos hc⟩

/-- Settles O20: the four jumps are `jumpTo` of their target, which the check stops at the jump's own address. -/
theorem selfJumpRaises : Obligations.SelfJumpRaises := fun s _ _ cc hcheck =>
  ⟨jumpForms_self s cc hcheck, jumpForms_self s cc hcheck⟩

/-! ### The calls -/

/-- What a call pushes is the `pc` it starts with: its internal M-cycle leaves `pc` alone (R266). -/
theorem next_callTo (target : Word) :
    (.next (callTo target s) : Result) = .next { push16 s.pc (tick s) with pc := target } :=
  congrArg _ (callTo_eq s target)

theorem callTo_cpu (target : Word) :
    ({ push16 s.pc (tick s) with pc := target } : State).cpu = { s.cpu with sp := s.sp - 2, pc := target } :=
  congrArg (fun p : Cpu => { p with pc := target }) (push16_tick_cpu s s.pc)

/-- Settles O51: each call answers `callTo` of its target, or the state as it is where its condition does not hold. -/
theorem callResults : Obligations.CallResults := fun s nn _ =>
  ⟨⟨tick s, push16 s.pc (tick s), waits_tick s, pushes_push16 (tick s) s.pc, next_callTo s nn, next_callTo s nn,
      fun hc => (if_pos hc).trans (next_callTo s nn), callTo_cpu s nn⟩,
    fun hc => if_neg (Bool.eq_false_iff.mp hc)⟩

/-! ### The returns -/

theorem poppable_tick : poppable (tick s) = poppable s := by
  simp only [poppable, tick_sp, readable_tick]

/-- The internal M-cycle before the test leaves the condition as it was (R269). -/
theorem exec_retCc_taken {cc : Cond} (hc : s.cond cc = true) : exec (.retCc cc) s = doReturn (tick s) :=
  if_pos ((tick_cond s cc).trans hc)

theorem exec_retCc_notTaken {cc : Cond} (hc : s.cond cc = false) : exec (.retCc cc) s = .next (tick s) :=
  if_neg (Bool.eq_false_iff.mp ((tick_cond s cc).trans hc))

/-- Settles O52: RET and RETI end the same pop, and a taken RET cc is the return from the state one M-cycle later. -/
theorem returnResults : Obligations.ReturnResults := by
  intro s cc
  refine ⟨fun hs => ?_, fun hs hc => ?_, fun hc => ⟨tick s, waits_tick s, exec_retCc_notTaken s hc⟩⟩
  · obtain ⟨v, u, hpop, hpops⟩ := pops_of_poppable s hs
    exact ⟨v, u, tick { u with pc := v }, hpops, waits_tick _, Flow.finish_of_ok hpop _, Flow.finish_of_ok hpop _⟩
  · obtain ⟨v, u, hpops, hreturn⟩ := doReturn_poppable (tick s) ((poppable_tick s).trans hs)
    exact ⟨tick s, v, u, _, waits_tick s, hpops, waits_tick _, (exec_retCc_taken s hc).trans hreturn⟩

end Sys2Proof.Machine
end

section
/-! PROOFS. NOP, HALT, STOP, DI, EI and the illegal opcodes (spec/46_system.md R280 to R285). -/

namespace Sys2Proof.Machine

variable {op : Byte} {i : Instr} {s : State}

/-! ### STOP and the illegal opcodes -/

/-- Each byte of the table is a whole encoding: the decoder asks for no second byte, after STOP either (R282). -/
theorem decode_of_mem_illegalTable (h : (op, i) ∈ illegalTable) : decode [op] = .ok (i, []) :=
  have hrows : (illegalTable.map fun row => decode [row.1]) = illegalTable.map fun row => .ok (row.2, []) := rfl
  List.map_inj_left.mp hrows (op, i) h

/-- The byte that each meaning records is the one the table lists it under. -/
theorem exec_of_mem_illegalTable (s : State) (h : (op, i) ∈ illegalTable) : exec i s = raiseIllegal op s :=
  have hrows : (illegalTable.map fun row => exec row.2 s) = illegalTable.map fun row => raiseIllegal row.1 s := rfl
  List.map_inj_left.mp hrows (op, i) h

/-- Settles O18: row by row of the table, the byte is the instruction's encoding and its meaning is `raiseIllegal` of the byte. -/
theorem illegalOpcodesRaise : Obligations.IllegalOpcodesRaise := fun _ _ h =>
  ⟨decode_of_mem_illegalTable h, fun s => exec_of_mem_illegalTable s h⟩

/-! ### HALT -/

theorem exec_halt_haltBug (hime : s.ime = false) (hp : pending s ≠ 0) : exec .halt s = .next { s with haltBug := true } :=
  if_pos (by rw [hime, Bool.not_false, Bool.true_and, bne_iff_ne]; exact hp)

theorem exec_halt_halted (h : s.ime = true ∨ pending s = 0) : exec .halt s = .next { s with halted := true } := by
  refine if_neg ?_
  rcases h with hime | hp
  · simp [hime]
  · simp [hp]

/-- Settles O53: HALT goes by IME and what is pending; NOP, DI and EI are one assignment at most. -/
theorem systemInstructions : Obligations.SystemInstructions := fun _ =>
  ⟨rfl, exec_halt_haltBug, exec_halt_halted, rfl, rfl⟩

end Sys2Proof.Machine
end

section
/-! PROOFS. What a step does before it executes an instruction, said once for every wiring (spec/60_exceptions.md R300 to R304,
spec/30_encoding.md R101 to R103): the entry, the opcode fetch and the fetch of the operand bytes, with the place where a read
raised; and the illegal opcodes as the only faults of the default wiring (R321). -/

namespace Sys2Proof.Machine

variable {s t u w : State} {op : Byte}

/-! ### The entry -/

/-- The state in which a step begins to fetch: HALT has ended and the deferred enable is done (R302, R304). -/
def State.awake (s : State) : State := { s with halted := false, ime := s.ime || s.eiDelay, eiDelay := false }

theorem stepEntry_fetch_eq (h : stepEntry s = .fetch u) : u = s.awake := by
  rcases stepEntry_cases s with ⟨_, -, -, he⟩ | ⟨-, -, he⟩ | he <;> rw [he] at h <;> cases h
  rfl

/-- Neither taking an interrupt nor a halted tick can fault (R315 corner case c). -/
theorem stepEntry_stepOver_faulted (h : stepEntry s = .stepOver t) : t.faulted = s.faulted := by
  rcases stepEntry_cases s with ⟨irq, -, -, he⟩ | ⟨-, -, he⟩ | he <;> rw [he] at h <;> cases h
  · rw [dispatch_frame]
  · exact tick_faulted s

/-! ### A read that raises -/

/-- The read M-cycle that began in `s` raised `HandlerMissing` at `a` and so ended the step in `t` (R322). -/
structure Missed (a : Word) (s t : State) : Prop where
  cpu : t.cpu = { s.cpu with faulted := some { kind := .handlerMissing, op := s.curOp, addr := a } }
  flat : t.flat = s.flat
  cycles : s.cfg.accessPhase = .accessThenTick → t.cycles = s.cycles

theorem memRead_unreadable {a : Word} (h : readable a s = false) : ∃ t, memRead a s = .raised t ∧ Missed a s t := by
  rcases memRead_cases s a with ⟨hr, -⟩ | ⟨-, hraised⟩
  · rw [h] at hr
    cases hr
  refine ⟨_, hraised, ?_⟩
  cases hphase : s.cfg.accessPhase with
  | accessThenTick => exact ⟨rfl, rfl, fun _ => rfl⟩
  | tickThenAccess =>
    have hcpu : (raiseFault .handlerMissing a (tick s)).cpu =
        { (tick s).cpu with faulted := some { kind := .handlerMissing, op := s.curOp, addr := a } } := by
      rw [← tick_curOp s]
      rfl
    rw [tick_cpu] at hcpu
    exact ⟨hcpu, tick_flat s, fun h => absurd (hphase.symm.trans h) (by decide)⟩

/-- Whether a read can raise was fixed at construction. -/
theorem readable_congr (h : SameConstruction s t) (a : Word) : readable a t = readable a s := by
  obtain ⟨hcfg, hregistry⟩ := h
  rw [readable, readable, hcfg, hregistry]

theorem OnlyTime.sameConstruction {n : Nat} (h : OnlyTime n s t) : SameConstruction s t := ⟨h.cfg, h.registry⟩

/-- `pc` has no part in the passing of time. -/
theorem OnlyTime.setPc {n : Nat} (h : OnlyTime n s t) (a : Word) : OnlyTime n { s with pc := a } { t with pc := a } := by
  unfold OnlyTime at h ⊢
  exact congrArg (fun x : State => { x with pc := a }) h

/-! ### The opcode -/

theorem fetchOpcode_onlyTime (h : fetchOpcode u = .ok op w) :
    OnlyTime 1 { u with curOp := some op, opaddr := u.pc, pc := u.operandPc, haltBug := false } w := by
  rcases fetchOpcode_cases u with ⟨op', m, he, -, hm, -⟩ | ⟨_, he, -⟩ <;> rw [he] at h <;> cases h
  exact congrArg (fun x : State => { x with curOp := some op, pc := u.operandPc, haltBug := false }) hm

theorem fetchOpcode_raised (h : fetchOpcode u = .raised t) : readable u.pc u = false := by
  rcases fetchOpcode_cases u with ⟨_, _, he, -⟩ | ⟨_, he, -, hr⟩
  · rw [he] at h
    cases h
  · exact hr

theorem fetchOpcode_plain_op (h : fetchOpcode u = .ok op w) (hp : plainAt u u.pc = true) : op = u.flat.read u.pc := by
  rw [fetchOpcode_plain u hp] at h
  cases h
  rfl

/-! ### The operand bytes -/

/-- `n` calls of `Fetch8` (R102). -/
def fetchOperands (n : Nat) (s : State) : Flow (List Byte) :=
  match n with
  | 0 => .ok [] s
  | k + 1 => (fetch8 s).bind fun v m => (fetchOperands k m).map fun vs w => (v :: vs, w)

/-- The instruction that `op` and its operand bytes decode to. -/
def decodeFetched (op : Byte) (bytes : List Byte) : Instr :=
  match decode (op :: bytes) with
  | .ok (i, _) => i
  | .error _ => .nop

theorem decode_fetched {bytes : List Byte} (h : bytes.length = operandCount op) :
    decode (op :: bytes) = .ok (decodeFetched op bytes, []) := by
  obtain ⟨i, hi⟩ := (firstByteDecidesLength op bytes).1 (Nat.le_of_eq h.symm)
  rw [← h, List.drop_length] at hi
  rw [decodeFetched, hi]

theorem decodeFetched_of_parses {bytes rest : List Byte} {i : Instr} (h : Parses op bytes i rest) :
    decodeFetched op bytes = i := by
  rw [decodeFetched, decode_cons_iff.mpr h]

/-- An instruction is fetched as its opcode, then the operand bytes that the opcode asks for (R115). -/
theorem fetchInstr_eq (u : State) :
    fetchInstr u =
      (fetchOpcode u).bind fun op m =>
        (fetchOperands (operandCount op) m).map fun bytes w => (decodeFetched op bytes, w) := by
  rw [fetchInstr]
  congr 1
  funext op m
  rw [← operandCount_decodeBase]
  cases hs : decodeBase op with
  | op i => exact congrArg (Flow.ok · m) (decodeFetched_of_parses (.op (rest := []) hs)).symm
  | n k =>
    have hk (v : Byte) : decodeFetched op [v] = k v := decodeFetched_of_parses (.n hs v)
    simp only [Shape.operandCount, fetchOperands]
    cases fetch8 m <;> simp [hk]
  | nn k =>
    have hk (lo hi : Byte) : decodeFetched op [lo, hi] = k (word hi lo) := decodeFetched_of_parses (.nn hs lo hi)
    simp only [Shape.operandCount, fetchOperands, fetch16]
    cases fetch8 m with
    | raised _ => rfl
    | ok lo m' =>
      simp only [Flow.bind_ok]
      cases fetch8 m' <;> simp [hk]
  | cb =>
    have hk (op2 : Byte) : decodeFetched op [op2] = decodeCb op2 := decodeFetched_of_parses (.cb hs op2)
    simp only [Shape.operandCount, fetchOperands]
    cases fetch8 m <;> simp [hk]

theorem fetch8_readable (h : readable s.pc s = true) :
    ∃ v t, fetch8 s = .ok v t ∧ OnlyTime 1 { s with pc := s.pc + 1 } t := by
  obtain ⟨v, m, hread, hm⟩ := memRead_readable s s.pc h
  have htime : OnlyTime 1 s m := hm
  refine ⟨v, { m with pc := m.pc + 1 }, by rw [fetch8, hread, Flow.map_ok], ?_⟩
  rw [htime.pc]
  exact htime.setPc (s.pc + 1)

theorem fetch8_unreadable (h : readable s.pc s = false) : ∃ t, fetch8 s = .raised t ∧ Missed s.pc s t := by
  obtain ⟨t, hread, hmissed⟩ := memRead_unreadable h
  exact ⟨t, by rw [fetch8, hread, Flow.map_raised], hmissed⟩

theorem OnlyTime.operandAddr {m : State} (hm : OnlyTime 1 { s with pc := s.pc + 1 } m) (k : Nat) :
    m.pc + BitVec.ofNat 16 k = s.pc + BitVec.ofNat 16 (k + 1) := by
  rw [hm.pc, BitVec.add_assoc, Nat.add_comm k 1, BitVec.ofNat_add]
  rfl

/-- One byte and then `k` more. -/
theorem OnlyTime.fetched_succ {m : State} {k : Nat} (hm : OnlyTime 1 { s with pc := s.pc + 1 } m)
    (ht : OnlyTime k { m with pc := m.pc + BitVec.ofNat 16 k } t) :
    OnlyTime (k + 1) { s with pc := s.pc + BitVec.ofNat 16 (k + 1) } t := by
  rw [hm.operandAddr] at ht
  have htime := (hm.setPc _).trans ht
  rwa [Nat.add_comm 1 k] at htime

theorem readable_fetched {m : State} (hm : OnlyTime 1 { s with pc := s.pc + 1 } m) (k : Nat) :
    readable (m.pc + BitVec.ofNat 16 k) m = readable (s.pc + BitVec.ofNat 16 (k + 1)) s := by
  rw [readable_congr hm.sameConstruction, hm.operandAddr]
  rfl

theorem fetchOperands_ok {n : Nat} {bytes : List Byte} (h : fetchOperands n s = .ok bytes t) :
    bytes.length = n ∧ OnlyTime n { s with pc := s.pc + BitVec.ofNat 16 n } t := by
  induction n generalizing s bytes with
  | zero =>
    cases h
    exact ⟨rfl, by simpa using OnlyTime.refl _⟩
  | succ k ih =>
    cases hr : readable s.pc s with
    | false =>
      obtain ⟨_, hfetch, -⟩ := fetch8_unreadable hr
      rw [fetchOperands, hfetch] at h
      cases h
    | true =>
      obtain ⟨v, m, hfetch, hm⟩ := fetch8_readable hr
      rw [fetchOperands, hfetch, Flow.bind_ok] at h
      cases hrest : fetchOperands k m with
      | raised _ => rw [hrest] at h; cases h
      | ok vs w =>
        rw [hrest] at h
        cases h
        obtain ⟨hlength, htime⟩ := ih hrest
        exact ⟨congrArg (· + 1) hlength, hm.fetched_succ htime⟩

/-- The fetch of `n` operand bytes ends at the first of them that cannot be read. -/
theorem fetchOperands_unreadable {k n : Nat} (hk : k < n) (hbefore : ∀ j < k, readable (s.pc + BitVec.ofNat 16 j) s = true)
    (hr : readable (s.pc + BitVec.ofNat 16 k) s = false) :
    ∃ m t, fetchOperands n s = .raised t ∧ OnlyTime k { s with pc := s.pc + BitVec.ofNat 16 k } m ∧
      Missed (s.pc + BitVec.ofNat 16 k) m t := by
  induction k generalizing s n with
  | zero =>
    rw [BitVec.add_zero] at hr ⊢
    obtain ⟨t, hfetch, hmissed⟩ := fetch8_unreadable hr
    obtain ⟨n, rfl⟩ := Nat.exists_eq_succ_of_ne_zero (Nat.ne_of_gt hk)
    exact ⟨s, t, by rw [fetchOperands, hfetch, Flow.bind_raised], OnlyTime.refl s, hmissed⟩
  | succ k ih =>
    obtain ⟨n, rfl⟩ := Nat.exists_eq_succ_of_ne_zero (Nat.ne_of_gt (Nat.zero_lt_of_lt hk))
    obtain ⟨v, m, hfetch, hm⟩ := fetch8_readable (by simpa using hbefore 0 (Nat.succ_pos k))
    obtain ⟨m', t, hrest, htime, hmissed⟩ := ih (Nat.lt_of_succ_lt_succ hk)
      (fun j hj => (readable_fetched hm j).trans (hbefore (j + 1) (Nat.succ_lt_succ hj)))
      ((readable_fetched hm k).trans hr)
    exact ⟨m', t, by rw [fetchOperands, hfetch, Flow.bind_ok, hrest, Flow.map_raised], hm.fetched_succ htime,
      hm.operandAddr k ▸ hmissed⟩

theorem fetchOperands_readable (h : ∀ a, readable a s = true) (n : Nat) : ∃ bytes t, fetchOperands n s = .ok bytes t := by
  induction n generalizing s with
  | zero => exact ⟨[], s, rfl⟩
  | succ k ih =>
    obtain ⟨v, m, hfetch, hm⟩ := fetch8_readable (h s.pc)
    obtain ⟨vs, t, hrest⟩ := ih fun a => (readable_congr hm.sameConstruction a).trans (h a)
    exact ⟨v :: vs, t, by rw [fetchOperands, hfetch, Flow.bind_ok, hrest, Flow.map_ok]⟩

/-! ### The whole instruction -/

/-- An instruction that has been fetched is what its bytes decode to. -/
theorem fetchInstr_ok {i : Instr} (h : fetchInstr u = .ok i w) :
    ∃ op m bytes, fetchOpcode u = .ok op m ∧ fetchOperands (operandCount op) m = .ok bytes w ∧
      decode (op :: bytes) = .ok (i, []) := by
  rw [fetchInstr_eq] at h
  cases hop : fetchOpcode u with
  | raised _ => rw [hop] at h; cases h
  | ok op m =>
    rw [hop, Flow.bind_ok] at h
    cases hrest : fetchOperands (operandCount op) m with
    | raised _ => rw [hrest] at h; cases h
    | ok bytes w' =>
      rw [hrest] at h
      cases h
      exact ⟨op, m, bytes, rfl, hrest, decode_fetched (fetchOperands_ok hrest).1⟩

theorem fetchInstr_readable (h : ∀ a, readable a u = true) : ∃ i w, fetchInstr u = .ok i w := by
  rw [fetchInstr_eq]
  cases hop : fetchOpcode u with
  | raised _ =>
    have hr := fetchOpcode_raised hop
    rw [h] at hr
    cases hr
  | ok op m =>
    obtain ⟨bytes, w, hrest⟩ := fetchOperands_readable
      (fun a => (readable_congr (fetchOpcode_onlyTime hop).sameConstruction a).trans (h a)) (operandCount op)
    exact ⟨_, w, by rw [Flow.bind_ok, hrest, Flow.map_ok]⟩

/-- An illegal opcode is fetched as the one byte of its table row. -/
theorem fetchInstr_illegal {i : Instr} (hrow : (op, i) ∈ illegalTable) (h : fetchInstr u = .ok i w) :
    fetchOpcode u = .ok op w := by
  obtain ⟨op', m, bytes, hop, hoperands, hdecode⟩ := fetchInstr_ok h
  have hbytes : op' :: bytes = [op] := by
    have hown := (encodeOfDecode _ _ _ hdecode).2
    rw [(encodeOfDecode _ _ _ (decode_of_mem_illegalTable hrow)).2, hown]
  cases hbytes
  have hlength := (fetchOperands_ok hoperands).1
  rw [← hlength] at hoperands
  cases hoperands
  exact hop

theorem fetchInstr_faulted {i : Instr} (h : fetchInstr u = .ok i w) : w.faulted = u.faulted := by
  obtain ⟨op, m, bytes, hop, hoperands, -⟩ := fetchInstr_ok h
  exact (fetchOperands_ok hoperands).2.faulted.trans (fetchOpcode_onlyTime hop).faulted

theorem fetchInstr_cfg {i : Instr} (h : fetchInstr u = .ok i w) : w.cfg = u.cfg := by
  obtain ⟨op, m, bytes, hop, hoperands, -⟩ := fetchInstr_ok h
  exact (fetchOperands_ok hoperands).2.cfg.trans (fetchOpcode_onlyTime hop).cfg

/-! ### The default wiring -/

theorem FaultFreeWiring.readable (h : FaultFreeWiring s) (a : Word) : readable a s = true := by
  simp [Machine.readable, h.noMissingHandler]

theorem FaultFreeWiring.congr (h : FaultFreeWiring s) (hcfg : t.cfg = s.cfg) : FaultFreeWiring t :=
  ⟨hcfg ▸ h.noMissingHandler, hcfg ▸ h.noSelfJumpCheck⟩

theorem FaultFreeWiring.awake (h : FaultFreeWiring s) : FaultFreeWiring s.awake := h.congr (t := s.awake) rfl

/-- Of the reasons for a fault the wiring leaves the illegal opcodes. -/
theorem exec_faults_illegal {i : Instr} {r : FaultRecord} (hw : FaultFreeWiring w) (hfaulted : w.faulted = none)
    (h : exec i w = .next t) (ht : t.faulted = some r) :
    ∃ op, (op, i) ∈ illegalTable ∧
      t = { w with faulted := some { kind := .illegalOpcode, op := some op, addr := w.opaddr } } := by
  rcases exec_costs w h with hcosts | ⟨⟨a, hr⟩, -⟩ | ⟨hcheck, -⟩ | hillegal
  · rw [hcosts.faulted, hfaulted] at ht
    cases ht
  · rw [hw.readable] at hr
    cases hr
  · rw [hw.noSelfJumpCheck] at hcheck
    cases hcheck
  · exact hillegal

/-- A step of the default wiring that faults has fetched an instruction and executed it. -/
theorem step_faults_executed {r : FaultRecord} (hw : FaultFreeWiring s) (hs : s.faulted = none) (h : step s = .next t)
    (ht : t.faulted = some r) : ∃ u i w, stepEntry s = .fetch u ∧ fetchInstr u = .ok i w ∧ exec i w = .next t := by
  obtain ⟨-, hover | ⟨u, hentry, hraised | ⟨i, w, hfetch, hexec⟩⟩⟩ := step_cases s h
  · rw [stepEntry_stepOver_faulted hover, hs] at ht
    cases ht
  · obtain rfl := stepEntry_fetch_eq hentry
    obtain ⟨i, w, hok⟩ := fetchInstr_readable hw.awake.readable
    rw [hok] at hraised
    cases hraised
  · exact ⟨u, i, w, hentry, hfetch, hexec⟩

/-- Settles O17: neither the entry nor the fetch faults, the execution does for an illegal opcode only, and that is one byte, so
that the opcode fetch is all that came before. -/
theorem onlyIllegalOpcodesFault : Obligations.OnlyIllegalOpcodesFault := by
  intro s t r hw hs h ht
  obtain ⟨u, i, w, hentry, hfetch, hexec⟩ := step_faults_executed hw hs h ht
  obtain rfl := stepEntry_fetch_eq hentry
  obtain ⟨op, hrow, rfl⟩ :=
    exec_faults_illegal (hw.awake.congr (fetchInstr_cfg hfetch)) ((fetchInstr_faulted hfetch).trans hs) hexec ht
  obtain rfl := Option.some.inj ht
  have hop := fetchInstr_illegal hrow hfetch
  have htime := fetchOpcode_onlyTime hop
  have haddr : w.opaddr = s.pc := htime.opaddr
  exact ⟨op, i, s.awake, w, hrow, hentry, rfl, hop, hfetch, fetchOpcode_plain_op (u := s.awake) hop, rfl, by rw [haddr],
    htime.cycles, htime.pc, htime.flat, htime.sp⟩

end Sys2Proof.Machine
end

section
/-! PROOFS. How each instruction reads its data, said once: not at all, one byte, or a pop (spec/20_memory.md R74,
spec/41_load16_stack.md R161). What follows is that every step of a machine without a fault has a next state (R324, R325), and
where a read that raises ends the step (R322). -/

namespace Sys2Proof.Machine

variable {i : Instr} {s t u m w : State} {a : Word} {op : Byte}

/-! ### The data reads of an instruction -/

/-- The internal M-cycles before the first data read: the one of RET cc (R269). -/
def leadTicks : Instr → Nat
  | .retCc _ => 1
  | _ => 0

/-- The three ways in which an instruction depends on the bus reads of `dataReads`. -/
inductive ExecReads (i : Instr) (s : State) : Prop
  | none (hreads : dataReads i s = []) (h : ∃ t, exec i s = .next t)
  | one {a : Word} {k : Byte → State → State} (hreads : dataReads i s = [a]) (hlead : leadTicks i = 0)
      (h : exec i s = (memRead a s).finish k)
  | pop {k : Word → State → State} (hreads : dataReads i s = [s.sp, s.sp + 1])
      (h : exec i s = (pop16 (ticks (leadTicks i) s)).finish k)

/-- Of two next states one is next. -/
theorem exists_next_ite (c : Bool) (x y : State) : ∃ t, (if c then .next x else .next y : Result) = .next t := by
  cases c
  · exact ⟨y, rfl⟩
  · exact ⟨x, rfl⟩

theorem execReads (i : Instr) (s : State) : ExecReads i s := by
  cases i
  case ldABc | ldADe | ldANn | ldhAC | ldhAN | ldRHl | ldAHli | ldAHld | addAHl | adcAHl | subHl | sbcAHl | andHl | xorHl
      | orHl | cpHl | incHl | decHl | rlcHl | rrcHl | rlHl | rrHl | slaHl | sraHl | swapHl | srlHl | bitBHl | resBHl | setBHl =>
    exact .one rfl rfl rfl
  case popQq | popAf | ret | reti => exact .pop rfl rfl
  case retCc cc =>
    cases hc : s.cond cc with
    | true => exact .pop (if_pos hc) (exec_retCc_taken s hc)
    | false => exact .none (if_neg (Bool.eq_false_iff.mp hc)) ⟨_, exec_retCc_notTaken s hc⟩
  case jpCcNn cc _ | jrCcE cc _ | callCcNn cc _ => exact .none rfl (exists_next_ite (s.cond cc) _ _)
  case halt => exact .none rfl (exists_next_ite (!s.ime && pending s != 0) _ _)
  all_goals exact .none rfl ⟨_, rfl⟩

/-! ### Every step completes -/

/-- No instruction is refused, and a fault of the hardware is a next state. -/
theorem exec_next (i : Instr) (s : State) : ∃ t, exec i s = .next t := by
  cases execReads i s with
  | none _ h => exact h
  | one _ _ h | pop _ h => rw [h]; exact Flow.finish_next _ _

theorem step_of_stepOver (hs : s.faulted = none) (hentry : stepEntry s = .stepOver t) : step s = .next t := by
  simp only [step, hs, hentry]

theorem step_of_fetch_raised (hs : s.faulted = none) (hentry : stepEntry s = .fetch u) (h : fetchInstr u = .raised t) :
    step s = .next t := by
  simp only [step, hs, hentry, h]

theorem step_of_fetch_ok (hs : s.faulted = none) (hentry : stepEntry s = .fetch u) (h : fetchInstr u = .ok i w) :
    step s = exec i w := by
  simp only [step, hs, hentry, h]

theorem step_next (hs : s.faulted = none) : ∃ t, step s = .next t := by
  cases hentry : stepEntry s with
  | stepOver t => exact ⟨t, step_of_stepOver hs hentry⟩
  | fetch u =>
    cases hfetch : fetchInstr u with
    | raised t => exact ⟨t, step_of_fetch_raised hs hentry hfetch⟩
    | ok i w =>
      rw [step_of_fetch_ok hs hentry hfetch]
      exact exec_next i w

theorem step_faulted {r : FaultRecord} (h : s.faulted = some r) : step s = .fault (.machineFaulted r) := by
  simp only [step, h]

/-- Settles O9: the entry, the fetch and every instruction answer a next state. -/
theorem stepStopsOnlyWhenFaulted : Obligations.StepStopsOnlyWhenFaulted := fun _ => ⟨step_next, fun _ => step_faulted⟩

/-! ### Where a read that raises ends the step -/

/-- A read that raises after `n` M-cycles leaves all but `faulted` as those M-cycles left it. -/
theorem Missed.after_onlyTime {n : Nat} {cur : Option Byte} (h : Missed a m t) (hm : OnlyTime n s m) (hcur : s.curOp = cur) :
    t.cpu = { s.cpu with faulted := some { kind := .handlerMissing, op := cur, addr := a } } ∧ t.flat = s.flat ∧
      (s.cfg.accessPhase = .accessThenTick → t.cycles = s.cycles + 4 * n) := by
  refine ⟨?_, h.flat.trans hm.flat, fun hphase => ?_⟩
  · rw [h.cpu, hm.cpu, hm.curOp, hcur]
  · rw [h.cycles (by rw [hm.cfg]; exact hphase), hm.cycles]

/-- `sp` has no part in the passing of time. -/
theorem OnlyTime.setSp {n : Nat} (h : OnlyTime n s t) (x : Word) : OnlyTime n { s with sp := x } { t with sp := x } := by
  unfold OnlyTime at h ⊢
  exact congrArg (fun y : State => { y with sp := x }) h

theorem pop16_unreadable_low (h : readable s.sp s = false) : ∃ t, pop16 s = .raised t ∧ Missed s.sp s t := by
  obtain ⟨t, hread, hmissed⟩ := memRead_unreadable h
  exact ⟨t, by rw [pop16, pop8, hread, Flow.map_raised, Flow.bind_raised], hmissed⟩

theorem pop16_unreadable_high (hlow : readable s.sp s = true) (hhigh : readable (s.sp + 1) s = false) :
    ∃ m t, pop16 s = .raised t ∧ OnlyTime 1 { s with sp := s.sp + 1 } m ∧ Missed (s.sp + 1) m t := by
  obtain ⟨v, m, hread, -, hm, -⟩ := reads_of_readable s hlow
  have hm' := hm.setSp (s.sp + 1)
  obtain ⟨t, hread', hmissed⟩ := memRead_unreadable ((readable_congr hm'.sameConstruction (s.sp + 1)).trans hhigh)
  refine ⟨{ m with sp := s.sp + 1 }, t, ?_, hm', hmissed⟩
  simp only [pop16, pop8, hread, Flow.map_ok, Flow.bind_ok, hm.sp, hread', Flow.map_raised]

/-- An instruction ends at the first of its data reads that raises. -/
theorem exec_unreadable {before after : List Word} (hreads : dataReads i s = before ++ a :: after)
    (hbefore : ∀ b ∈ before, readable b s = true) (ha : readable a s = false) :
    ∃ m t, exec i s = .next t ∧
      OnlyTime (before.length + leadTicks i) { s with sp := s.sp + BitVec.ofNat 16 before.length } m ∧ Missed a m t := by
  cases execReads i s with
  | none hnone => simp [hnone] at hreads
  | one hone hlead h =>
    rw [hone, eq_comm, List.append_eq_singleton_iff] at hreads
    obtain ⟨rfl, hcons⟩ | ⟨-, hcons⟩ := hreads <;> cases hcons
    obtain ⟨t, hread, hmissed⟩ := memRead_unreadable ha
    refine ⟨s, t, by rw [h, hread, Flow.finish_raised], ?_, hmissed⟩
    simpa [hlead] using OnlyTime.refl s
  | pop hpop h =>
    have hlead := onlyTime_ticks s (leadTicks i)
    have hreadable := readable_congr hlead.sameConstruction
    rw [hpop] at hreads
    match before with
    | [] =>
      cases hreads
      obtain ⟨t, hraised, hmissed⟩ :=
        pop16_unreadable_low (s := ticks (leadTicks i) s) (by rw [hlead.sp, hreadable]; exact ha)
      refine ⟨_, t, by rw [h, hraised, Flow.finish_raised], ?_, hlead.sp ▸ hmissed⟩
      simpa using hlead
    | [_] =>
      cases hreads
      obtain ⟨m, t, hraised, hm, hmissed⟩ := pop16_unreadable_high (s := ticks (leadTicks i) s)
        (by rw [hlead.sp, hreadable]; exact hbefore _ (List.mem_singleton_self _)) (by rw [hlead.sp, hreadable]; exact ha)
      rw [hlead.sp] at hm hmissed
      have htime := (hlead.setSp (s.sp + 1)).trans hm
      rw [Nat.add_comm] at htime
      exact ⟨m, t, by rw [h, hraised, Flow.finish_raised], htime, hmissed⟩
    | _ :: _ :: _ => simp at hreads

theorem fetchOpcode_unreadable (h : readable u.pc u = false) :
    ∃ t, fetchOpcode u = .raised t ∧ Missed u.pc { u with curOp := none, opaddr := u.pc } t := by
  obtain ⟨t, hread, hmissed⟩ := memRead_unreadable (s := { u with curOp := none, opaddr := u.pc }) h
  exact ⟨t, by rw [fetchOpcode, hread, Flow.map_raised], hmissed⟩

theorem fetchInstr_opcode_raised (h : fetchOpcode u = .raised t) : fetchInstr u = .raised t := by
  rw [fetchInstr_eq, h, Flow.bind_raised]

theorem fetchInstr_operands_raised (hop : fetchOpcode u = .ok op w) (h : fetchOperands (operandCount op) w = .raised t) :
    fetchInstr u = .raised t := by
  rw [fetchInstr_eq, hop, Flow.bind_ok, h, Flow.map_raised]

/-- Settles O19: a data read, the opcode fetch and the fetch of an operand byte each end the step in the state of the read. -/
theorem unhandledReadRaises : Obligations.UnhandledReadRaises := by
  refine ⟨fun i s before after a hreads hbefore ha => ?_,
    fun s u hs hentry => ⟨fun hop => ?_, fun op w k hop hk hbefore hr => ?_⟩⟩
  · obtain ⟨m, t, hexec, hm, hmissed⟩ := exec_unreadable hreads hbefore ha
    obtain ⟨hcpu, hflat, hcycles⟩ := hmissed.after_onlyTime hm rfl
    exact ⟨t, hexec, hcpu, hflat, hcycles⟩
  · obtain rfl := stepEntry_fetch_eq hentry
    obtain ⟨t, hraised, hmissed⟩ := fetchOpcode_unreadable hop
    exact ⟨t, step_of_fetch_raised hs hentry (fetchInstr_opcode_raised hraised), hmissed.cpu, hmissed.flat, hmissed.cycles⟩
  · obtain rfl := stepEntry_fetch_eq hentry
    have hw := fetchOpcode_onlyTime hop
    obtain ⟨m, t, hraised, hm, hmissed⟩ := fetchOperands_unreadable hk hbefore hr
    obtain ⟨hcpu, hflat, hcycles⟩ := hmissed.after_onlyTime hm hw.curOp
    refine ⟨t, step_of_fetch_raised hs hentry (fetchInstr_operands_raised hop hraised), hcpu, hflat.trans hw.flat,
      fun hphase => (hcycles ((congrArg Config.accessPhase hw.cfg).trans hphase)).trans ?_⟩
    show w.cycles + 4 * k = s.cycles + 4 * (k + 1)
    rw [hw.cycles]
    show s.cycles + 4 * 1 + 4 * k = s.cycles + 4 * (k + 1)
    omega

end Sys2Proof.Machine
end

section
/-! PROOFS. The timer (spec/60_exceptions.md R340 to R347). -/

namespace Sys2Proof.Machine

variable {s t : State} {a : Word}

/-! ### TIMA and the edge -/

/-- `IncrementTima` in one expression: the wrap is the increment from 0xFF (R341). -/
theorem incrementTima_eq (s : State) :
    incrementTima s =
      { s with tima := s.tima + 1, reloadPending := decide (s.tima = 0xFF) || s.reloadPending } := by
  by_cases h : s.tima = 0xFF
  · rw [incrementTima_wrap s h, h]
    rfl
  · rw [incrementTima_plain s h, decide_eq_false h, Bool.false_or]

/-- `TimerEdge` says what is a falling edge (R340). -/
theorem timerEdge_eq (old new : Word) (s : State) :
    timerEdge old new s =
      if old.getLsbD (tacSelectedBit s) = true ∧ new.getLsbD (tacSelectedBit s) = false ∧ s.tac.getLsbD 2 = true then
        incrementTima s
      else s := by
  simp only [timerEdge, Bool.and_eq_true, Bool.not_eq_true', and_assoc]

theorem timerEdge_disabled (h : s.tac.getLsbD 2 = false) (old new : Word) : timerEdge old new s = s := by
  rw [timerEdge_eq, if_neg fun he => Bool.false_ne_true (h.symm.trans he.2.2)]

/-- The selected bit depends on TAC and on the table that construction fixed (R39). -/
theorem tacSelectedBit_congr (hcfg : t.cfg = s.cfg) (htac : t.tac = s.tac) : tacSelectedBit t = tacSelectedBit s := by
  simp only [tacSelectedBit, hcfg, htac]

/-- Settles O28: the wrap, the plain increment and the disabled timer are the branches of `IncrementTima` and `TimerEdge`. -/
theorem timaCountsAndWraps : Obligations.TimaCountsAndWraps := fun s old new =>
  ⟨incrementTima_plain s, incrementTima_wrap s, fun h => timerEdge_disabled h old new⟩

/-- `ResetDivider` in one expression: the new value 0 has no bit set, so the edge falls where the selected bit was 1 (R344). -/
theorem resetDivider_eq (s : State) :
    resetDivider s =
      if s.counter.getLsbD (tacSelectedBit s) = true ∧ s.tac.getLsbD 2 = true then incrementTima { s with counter := 0 }
      else { s with counter := 0 } := by
  have hzero : (0 : Word).getLsbD (tacSelectedBit s) = false := BitVec.getLsbD_zero
  rw [resetDivider, timerEdge_eq, tacSelectedBit_congr (s := s) (t := { s with counter := 0 }) rfl rfl]
  simp only [hzero, true_and]

/-- Settles O29: a write to DIV is `ResetDivider`. -/
theorem divWriteResetsDivider : Obligations.DivWriteResetsDivider := by
  intro s a v hw hl
  have hwrite : busWrite a v s = resetDivider s := busWrite_core v hw hl
  rw [hwrite, resetDivider_eq]
  refine ⟨fun htac hbit => if_pos ⟨hbit, htac⟩, fun h => if_neg ?_⟩
  rintro ⟨hbit, htac⟩
  rcases h with h | h
  · rw [h] at htac
    cases htac
  · rw [h] at hbit
    cases hbit

/-! ### One tick -/

/-- The delayed reload in one expression (R343). -/
theorem applyReload_eq (s : State) :
    applyReload s =
      if s.reloadPending then { s with tima := s.tma, ifr := s.ifr ||| 0b00100, reloadPending := false } else s := rfl

theorem applyReload_of_notPending (h : s.reloadPending = false) : applyReload s = s := if_neg (Bool.eq_false_iff.mp h)

/-- The edge is that of the bit selected by the state that advances (R340). -/
theorem advanceCounter_eq (s : State) :
    advanceCounter s =
      if s.counter.getLsbD (tacSelectedBit s) = true ∧ (s.counter + 4).getLsbD (tacSelectedBit s) = false ∧
          s.tac.getLsbD 2 = true then
        incrementTima { s with counter := s.counter + 4 }
      else { s with counter := s.counter + 4 } := timerEdge_eq _ _ { s with counter := s.counter + 4 }

/-- A tick up to its notification: what it is on the flat platform. -/
def tickQuietly (s : State) : State := { advanceCounter (applyReload s) with cycles := s.cycles + 4 }

theorem tick_eq_notify (s : State) : tick s = notify 4 (tickQuietly s) := by
  have hcycles : (advanceCounter (applyReload s)).cycles = s.cycles := by simp [advanceCounter]
  rw [tick, hcycles]
  rfl

theorem tickQuietly_platform (s : State) : (tickQuietly s).cfg.platform = s.cfg.platform := by
  simp [tickQuietly, advanceCounter]

theorem tickQuietly_eq (s : State) :
    tickQuietly s =
      if s.counter.getLsbD (tacSelectedBit s) = true ∧ (s.counter + 4).getLsbD (tacSelectedBit s) = false ∧
          s.tac.getLsbD 2 = true then
        { applyReload s with
          counter := s.counter + 4, tima := (applyReload s).tima + 1
          reloadPending := decide ((applyReload s).tima = 0xFF) || (applyReload s).reloadPending, cycles := s.cycles + 4 }
      else { applyReload s with counter := s.counter + 4, cycles := s.cycles + 4 } := by
  have hedge : (applyReload s).counter.getLsbD (tacSelectedBit (applyReload s)) = true ∧
        ((applyReload s).counter + 4).getLsbD (tacSelectedBit (applyReload s)) = false ∧
          (applyReload s).tac.getLsbD 2 = true ↔
      s.counter.getLsbD (tacSelectedBit s) = true ∧ (s.counter + 4).getLsbD (tacSelectedBit s) = false ∧
        s.tac.getLsbD 2 = true := by
    rw [tacSelectedBit_congr (applyReload_cfg s) (applyReload_tac s), applyReload_counter, applyReload_tac]
  rw [tickQuietly, advanceCounter_eq, if_congr hedge rfl rfl, applyReload_counter]
  split
  · rw [incrementTima_eq]
  · rfl

/-- Settles O27: a tick is the reload, the divider with its edge, the count and the notification, one expression for each. -/
theorem tickEffect : Obligations.TickEffect := fun s =>
  ⟨applyReload s, tickQuietly s, applyReload_eq s, tickQuietly_eq s, tick_eq_notify s,
    fun h => (tick_eq_notify s).trans (notify_flatPlatform _ 4 ((tickQuietly_platform s).trans h)), by
      rw [tick_eq_notify, notify_frame]⟩

/-! ### Rates -/

/-- A number goes up by 4. Bit `b`, of weight 4 or more, falls where the count of its periods goes up by one. -/
theorem div_period_add_four {b : Nat} (hb : 2 ≤ b) (n : Nat) :
    (n + 4) / 2 ^ (b + 1) = n / 2 ^ (b + 1) + if n.testBit b = true ∧ (n + 4).testBit b = false then 1 else 0 := by
  have hpos : 0 < 2 ^ b := Nat.two_pow_pos b
  have hle : 2 ^ 2 ≤ 2 ^ b := Nat.pow_le_pow_right (by decide) hb
  have hlow : n / 2 ^ b ≤ (n + 4) / 2 ^ b := Nat.div_le_div_right (Nat.le_add_right n 4)
  have hhigh : (n + 4) / 2 ^ b ≤ n / 2 ^ b + 1 := by
    rw [← Nat.add_div_right n hpos]
    exact Nat.div_le_div_right (Nat.add_le_add_left hle n)
  simp only [Nat.testBit_eq_decide_div_mod_eq, decide_eq_true_eq, decide_eq_false_iff_not, Nat.pow_succ,
    ← Nat.div_div_eq_div_mul]
  split <;> omega

/-- The edge of a tick in the unbounded count that the divider is the low half of. -/
theorem falls_iff {b : Nat} (hb : b < 16) {c : Word} {n : Nat} (hc : c = BitVec.ofNat 16 n) :
    (c.getLsbD b = true ∧ (c + 4).getLsbD b = false) ↔ (n.testBit b = true ∧ (n + 4).testBit b = false) := by
  have hsum : c + 4 = BitVec.ofNat 16 (n + 4) := by rw [hc, BitVec.ofNat_add]; rfl
  rw [hsum, hc]
  simp only [BitVec.getLsbD_ofNat, decide_eq_true hb, Bool.true_and]

theorem ticks_counter (n : Nat) (s : State) : (ticks n s).counter = s.counter + BitVec.ofNat 16 (4 * n) :=
  (onlyTime_ticks s n).counter

theorem ticks_counter_ofNat (n : Nat) (s : State) : (ticks n s).counter = BitVec.ofNat 16 (s.counter.toNat + 4 * n) := by
  rw [ticks_counter, BitVec.ofNat_add, BitVec.ofNat_toNat, BitVec.setWidth_eq]

/-- The timer counts: it is enabled with `b` as its selected bit, and no reload is pending. -/
structure Counting (b : Nat) (s : State) : Prop where
  enabled : s.tac.getLsbD 2 = true
  selected : tacSelectedBit s = b
  noReload : s.reloadPending = false

/-- The next tick is a falling edge of bit `b`. -/
def Falls (b : Nat) (s : State) : Prop := s.counter.getLsbD b = true ∧ (s.counter + 4).getLsbD b = false

theorem Counting.tickQuietly_falls {b : Nat} (h : Counting b s) (hfall : Falls b s) :
    tickQuietly s =
      { s with
        counter := s.counter + 4, tima := s.tima + 1, reloadPending := decide (s.tima = 0xFF), cycles := s.cycles + 4 } := by
  rw [tickQuietly_eq, applyReload_of_notPending h.noReload, h.selected, if_pos ⟨hfall.1, hfall.2, h.enabled⟩, h.noReload,
    Bool.or_false]

theorem Counting.tickQuietly_still {b : Nat} (h : Counting b s) (hfall : ¬Falls b s) :
    tickQuietly s = { s with counter := s.counter + 4, cycles := s.cycles + 4 } := by
  rw [tickQuietly_eq, applyReload_of_notPending h.noReload, h.selected, if_neg fun he => hfall ⟨he.1, he.2.1⟩]

theorem Counting.of_tickQuietly {b : Nat} (h : Counting b s) (hreload : (tickQuietly s).reloadPending = false) :
    Counting b (tick s) where
  enabled := by rw [tick_tac]; exact h.enabled
  selected := (tacSelectedBit_congr (tick_cfg s) (tick_tac s)).trans h.selected
  noReload := by rw [tick_eq_notify, notify_reloadPending]; exact hreload

theorem tick_tima (s : State) : (tick s).tima = (tickQuietly s).tima := by rw [tick_eq_notify, notify_tima]

/-- A falling edge that does not find TIMA at 0xFF increments it, and no reload comes of it. -/
theorem Counting.tick_falls {b : Nat} (h : Counting b s) (hfall : Falls b s) (htima : s.tima ≠ 0xFF) :
    Counting b (tick s) ∧ (tick s).tima = s.tima + 1 :=
  ⟨h.of_tickQuietly (by rw [h.tickQuietly_falls hfall]; exact decide_eq_false htima),
    by rw [tick_tima, h.tickQuietly_falls hfall]⟩

theorem Counting.tick_still {b : Nat} (h : Counting b s) (hfall : ¬Falls b s) :
    Counting b (tick s) ∧ (tick s).tima = s.tima :=
  ⟨h.of_tickQuietly (by rw [h.tickQuietly_still hfall]; exact h.noReload),
    by rw [tick_tima, h.tickQuietly_still hfall]⟩

/-- Over `k` ticks, TIMA counts the periods of the selected bit that end, up to its wrap. -/
theorem Counting.ticks {b : Nat} (hb : 2 ≤ b) (hb' : b < 16) (h : Counting b s) (k : Nat)
    (hk : s.tima.toNat + (s.counter.toNat + 4 * k) / 2 ^ (b + 1) < 256 + s.counter.toNat / 2 ^ (b + 1)) :
    Counting b (ticks k s) ∧
      (ticks k s).tima.toNat + s.counter.toNat / 2 ^ (b + 1) =
        s.tima.toNat + (s.counter.toNat + 4 * k) / 2 ^ (b + 1) := by
  induction k with
  | zero => exact ⟨h, rfl⟩
  | succ k ih =>
    have hperiod := div_period_add_four hb (s.counter.toNat + 4 * k)
    rw [Nat.mul_succ, ← Nat.add_assoc] at hk ⊢
    obtain ⟨hcounting, htima⟩ := ih (by omega)
    have hfalls := falls_iff hb' (ticks_counter_ofNat k s)
    rw [← tick_ticks]
    by_cases hfall : Falls b (Machine.ticks k s)
    · rw [if_pos (hfalls.mp hfall)] at hperiod
      have hlt : (Machine.ticks k s).tima.toNat + 1 < 256 := by omega
      obtain ⟨hnext, hinc⟩ := hcounting.tick_falls hfall (by bv_omega)
      refine ⟨hnext, ?_⟩
      rw [hinc, BitVec.toNat_add_of_lt hlt]
      show (Machine.ticks k s).tima.toNat + 1 + _ = _
      omega
    · rw [if_neg (hfalls.not.mp hfall)] at hperiod
      obtain ⟨hnext, hsame⟩ := hcounting.tick_still hfall
      refine ⟨hnext, ?_⟩
      rw [hsame]
      omega

/-- From every phase of the divider one period of the selected bit ends in as many ticks as the period has (R347). -/
theorem tima_after_period {b n : Nat} (hb : 2 ≤ b) (hb' : b < 16) (hn : 4 * n = 2 ^ (b + 1)) (h : Counting b s)
    (htima : s.tima ≠ 0xFF) : (ticks n s).tima = s.tima + 1 := by
  have hend : (s.counter.toNat + 4 * n) / 2 ^ (b + 1) = s.counter.toNat / 2 ^ (b + 1) + 1 := by
    rw [hn, Nat.add_div_right _ (Nat.two_pow_pos _)]
  have hlt : s.tima.toNat + 1 < 256 := by bv_omega
  obtain ⟨-, hcount⟩ := h.ticks hb hb' n (by omega)
  bv_omega

/-- 64 ticks move the divider by 256, and so its high byte by one (R36). -/
theorem divider_add_256 (c : Word) : (c + 256#16).extractLsb' 8 8 = c.extractLsb' 8 8 + 1#8 := by
  apply BitVec.eq_of_toNat_eq
  simp only [BitVec.extractLsb'_toNat, BitVec.toNat_add, Nat.shiftRight_eq_div_pow, BitVec.toNat_ofNat]
  omega

/-- Settles O30: the divider moves by 4 a tick, and TIMA by one in a period of the bit that the default table selects. -/
theorem timerRates : Obligations.TimerRates := by
  intro s
  refine ⟨?_, ?_, fun hcfg htac hreload htima => ?_⟩
  · rw [ticks_counter]
    exact divider_add_256 s.counter
  · rw [ticks_counter]
    exact BitVec.add_zero s.counter
  · have hperiod {b n : Nat} (hb : 2 ≤ b) (hb' : b < 16) (hn : 4 * n = 2 ^ (b + 1)) (hsel : tacSelectedBit s = b) :=
      tima_after_period hb hb' hn ⟨htac, hsel, hreload⟩ htima
    simp only [tacSelectedBit, hcfg] at hperiod
    split <;> rename_i h1 h0 <;> simp only [h1, h0] at hperiod
    · exact hperiod (b := 9) (by decide) (by decide) (by decide) rfl
    · exact hperiod (b := 3) (by decide) (by decide) (by decide) rfl
    · exact hperiod (b := 5) (by decide) (by decide) (by decide) rfl
    · exact hperiod (b := 7) (by decide) (by decide) (by decide) rfl

end Sys2Proof.Machine
end

section
/-! PROOFS. Interrupts and the order of a step (spec/60_exceptions.md R300 to R316). -/

namespace Sys2Proof.Machine

variable {s u : State} {t : Irq}

/-! ### Requests and what is pending -/

theorem Irq.num_lt (t : Irq) : t.num < 5 := by cases t <;> decide

theorem Irq.getLsbD_mask (t : Irq) (k : Nat) : t.mask.getLsbD k = decide (k = t.num) := by
  have ht := t.num_lt
  rw [Irq.mask, Nat.one_shiftLeft, BitVec.natCast_eq_ofNat, BitVec.getLsbD_ofNat, Nat.testBit_two_pow, ← Bool.decide_and]
  exact decide_eq_decide.mpr (by omega)

/-- The sources in the order in which `CheckInterrupts` tries them (R310, R314). -/
def Irq.byPriority : List Irq := [.vblank, .stat, .timer, .serial, .joypad]

/-- The type number is the place in that order. -/
theorem Irq.byPriority_num (t : Irq) : Irq.byPriority[t.num]? = some t := by cases t <;> rfl

theorem Irq.num_inj {t u : Irq} : u.num = t.num ↔ u = t := by
  refine ⟨fun h => Option.some.inj ?_, congrArg Irq.num⟩
  rw [← u.byPriority_num, h, t.byPriority_num]

theorem getLsbD_requestInterrupt (t u : Irq) (s : State) :
    (requestInterrupt t s).ifr.getLsbD u.num = (decide (u = t) || s.ifr.getLsbD u.num) := by
  rw [requestInterrupt, BitVec.getLsbD_or, Irq.getLsbD_mask, Bool.or_comm]
  simp only [Irq.num_inj]

/-- A request for a source that is already pending sets a bit that is set (R311). -/
theorem requestInterrupt_of_pending (h : s.ifr.getLsbD t.num = true) : requestInterrupt t s = s := by
  have hifr : s.ifr ||| t.mask = s.ifr := by
    refine BitVec.eq_of_getLsbD_eq fun k _ => ?_
    rw [BitVec.getLsbD_or, Irq.getLsbD_mask]
    by_cases hk : k = t.num
    · rw [hk, h, Bool.true_or]
    · rw [decide_eq_false hk, Bool.or_false]
  rw [requestInterrupt, hifr]

/-- Settles O11: a request is a disjunction with the one bit of its source. -/
theorem requestSetsOneBit : Obligations.RequestSetsOneBit := fun t s =>
  ⟨rfl, fun u => getLsbD_requestInterrupt t u s, requestInterrupt_of_pending⟩

theorem getLsbD_clearInterrupt (t u : Irq) (s : State) :
    (clearInterrupt t s).ifr.getLsbD u.num = (s.ifr.getLsbD u.num && decide (u ≠ t)) := by
  rw [clearInterrupt, BitVec.getLsbD_and, BitVec.getLsbD_not, Irq.getLsbD_mask, decide_eq_true u.num_lt, Bool.true_and,
    decide_not]
  simp only [Irq.num_inj]

theorem getLsbD_pending (s : State) (t : Irq) : (pending s).getLsbD t.num = (s.ie.getLsbD t.num && s.ifr.getLsbD t.num) := by
  rw [pending, BitVec.getLsbD_and, BitVec.getLsbD_setWidth, decide_eq_true t.num_lt, Bool.true_and]

/-! ### The choice of the source -/

theorem Irq.mem_byPriority (t : Irq) : t ∈ Irq.byPriority := List.mem_of_getElem? t.byPriority_num

theorem Irq.byPriority_sorted : Irq.byPriority.Pairwise (·.num < ·.num) := by decide

/-- In a list that rises, what `find?` finds is the least that passes the test. -/
theorem find?_eq_some_iff_least {l : List Irq} (hl : l.Pairwise (·.num < ·.num)) (p : Irq → Bool) :
    l.find? p = some t ↔ t ∈ l ∧ p t = true ∧ ∀ u ∈ l, u.num < t.num → p u = false := by
  rw [List.find?_eq_some_iff_append]
  constructor
  · rintro ⟨ht, before, after, rfl, hbefore⟩
    refine ⟨by simp, ht, fun u hu hlt => ?_⟩
    rw [List.mem_append] at hu
    rcases hu with hu | hu
    · simpa using hbefore u hu
    · have hle : t.num ≤ u.num := by
        rcases List.mem_cons.mp hu with rfl | hu
        · exact Nat.le_refl _
        · exact Nat.le_of_lt (List.rel_of_pairwise_cons (List.pairwise_append.mp hl).2.1 hu)
      omega
  · rintro ⟨hmem, ht, hleast⟩
    obtain ⟨before, after, rfl⟩ := List.append_of_mem hmem
    refine ⟨ht, before, after, rfl, fun u hu => ?_⟩
    have hlt : u.num < t.num := (List.pairwise_append.mp hl).2.2 u hu t (List.mem_cons_self ..)
    simp [hleast u (List.mem_append_left _ hu) hlt]

theorem checkInterrupts_eq_some_iff :
    checkInterrupts s = some t ↔
      (pending s).getLsbD t.num = true ∧ ∀ u : Irq, u.num < t.num → (pending s).getLsbD u.num = false := by
  refine (find?_eq_some_iff_least Irq.byPriority_sorted fun t => (pending s).getLsbD t.num).trans ?_
  simp only [Irq.mem_byPriority, true_and, true_implies]

theorem checkInterrupts_eq_none_iff :
    checkInterrupts s = none ↔ ∀ t : Irq, (pending s).getLsbD t.num = false := by
  refine (List.find?_eq_none (l := Irq.byPriority)).trans ?_
  simp only [Irq.mem_byPriority, true_implies, Bool.not_eq_true]

/-- Settles O10: the sources are tried in rising order, and a bit is pending where IE and IF both have it. -/
theorem checkInterruptsPicksLeast : Obligations.CheckInterruptsPicksLeast := by
  intro s
  have hp (t : Irq) : (s.ie.getLsbD t.num = true ∧ s.ifr.getLsbD t.num = true) ↔ (pending s).getLsbD t.num = true := by
    rw [getLsbD_pending, Bool.and_eq_true]
  simp only [hp, Bool.not_eq_true]
  exact ⟨checkInterrupts_eq_none_iff, fun t => checkInterrupts_eq_some_iff⟩

theorem checkInterrupts_of_pending_zero (h : pending s = 0) : checkInterrupts s = none :=
  checkInterrupts_eq_none_iff.mpr fun t => by rw [h]; exact BitVec.getLsbD_zero

/-! ### The order of the step -/

theorem stepEntry_dispatch (hc : checkInterrupts s = some t) (hime : s.ime = true) :
    stepEntry s = .stepOver (dispatch t { s with halted := false }) := by
  simp only [stepEntry, hc, hime, if_true]

theorem stepEntry_wake (hc : checkInterrupts s = some t) (hime : s.ime = false) :
    stepEntry s = .fetch (deferredEnable { s with halted := false }) := by
  simp only [stepEntry, hc, hime, Bool.false_eq_true, if_false]

theorem stepEntry_halted (hc : checkInterrupts s = none) (hh : s.halted = true) : stepEntry s = .stepOver (tick s) := by
  simp only [stepEntry, hc, hh, if_true]

theorem stepEntry_run (hc : checkInterrupts s = none) (hh : s.halted = false) :
    stepEntry s = .fetch (deferredEnable s) := by
  simp only [stepEntry, hc, hh, Bool.false_eq_true, if_false]

/-- Settles O16: the clauses are the branches of the entry and of the deferred enable. -/
theorem stepEntryOrder : Obligations.StepEntryOrder := fun _ =>
  ⟨fun _ => stepEntry_dispatch, fun _ => stepEntry_wake, stepEntry_halted, stepEntry_run, fun h => if_pos h,
    fun h => if_neg (Bool.eq_false_iff.mp h)⟩

/-- Settles O14: with nothing pending and enabled the entry of a halted machine is a tick, and the step is over. -/
theorem haltedStepIsOneTick : Obligations.HaltedStepIsOneTick := fun s hs hh hp =>
  ⟨step_of_stepOver hs (stepEntry_halted (checkInterrupts_of_pending_zero hp) hh), onlyTime_tick s⟩

/-- Settles O15: by the fetch of an instruction from plain memory. -/
theorem stepRunsDecodedInstruction : Obligations.StepRunsDecodedInstruction := by
  intro s u i n hs hentry hdecode hop hoperands
  rw [step_of_decode u hs hentry hdecode hop hoperands, State.fetching_eq]
  rfl

/-! ### Taking an interrupt -/

theorem step_dispatch (hs : s.faulted = none) (hime : s.ime = true) (hc : checkInterrupts s = some t) :
    step s = .next (dispatch t { s with halted := false }) :=
  step_of_stepOver hs (stepEntry_dispatch hc hime)

theorem dispatch_cpu (t : Irq) (s : State) :
    (dispatch t s).cpu = { s.cpu with ime := false, sp := s.sp - 2, pc := t.vector } := by
  rw [dispatch_frame]
  rfl

theorem dispatch_cycles (t : Irq) (s : State) : (dispatch t s).cycles = s.cycles + 20 := by rw [dispatch_frame]

/-- Settles O12: the step is `dispatch`, whose parts are the ticks, the push and the clearing of one bit of IF. -/
theorem dispatchTakesInterrupt : Obligations.DispatchTakesInterrupt := fun s t hs hime hc =>
  ⟨push16 s.pc (tick (tick { s with ime := false, halted := false })), _, _, pushes_push16 _ _,
    fun u => getLsbD_clearInterrupt t u _, dispatch_eq { s with halted := false } t, step_dispatch hs hime hc,
    dispatch_cpu t { s with halted := false }, dispatch_cycles t { s with halted := false }⟩

/-! ### With the timer quiet -/

/-- On such a machine a tick moves the divider and the count of cycles and nothing else. -/
structure TimerQuiet (s : State) : Prop where
  platform : s.cfg.platform = .flat
  noReload : s.reloadPending = false
  disabled : s.tac.getLsbD 2 = false

theorem TimerQuiet.tick_eq (h : TimerQuiet s) : tick s = { s with counter := s.counter + 4, cycles := s.cycles + 4 } := by
  have hnotify := notify_flatPlatform (tickQuietly s) 4 ((tickQuietly_platform s).trans h.platform)
  rw [tick_eq_notify, hnotify, tickQuietly_eq, applyReload_of_notPending h.noReload,
    if_neg fun he => Bool.false_ne_true (h.disabled.symm.trans he.2.2)]

theorem TimerQuiet.tick (h : TimerQuiet s) : TimerQuiet (tick s) := by
  rw [h.tick_eq]
  exact ⟨h.platform, h.noReload, h.disabled⟩

theorem TimerQuiet.tick_ifr (h : TimerQuiet s) : (Machine.tick s).ifr = s.ifr := by rw [h.tick_eq]

theorem TimerQuiet.ticks (h : TimerQuiet s) (n : Nat) : TimerQuiet (ticks n s) ∧ (Machine.ticks n s).ifr = s.ifr := by
  induction n generalizing s with
  | zero => exact ⟨h, rfl⟩
  | succ k ih =>
    obtain ⟨hquiet, hifr⟩ := ih h.tick
    exact ⟨hquiet, hifr.trans h.tick_ifr⟩

theorem TimerQuiet.push16 (h : TimerQuiet s) (v : Word) (hhi : plainAt s (s.sp - 1) = true)
    (hlo : plainAt s (s.sp - 2) = true) :
    TimerQuiet (push16 v s) ∧ (push16 v s).ifr = s.ifr ∧
      (push16 v s).flat = (s.flat.write (s.sp - 1) (hiByte v)).write (s.sp - 2) (loByte v) := by
  obtain ⟨⟨hplatform, hreload, htac⟩, hifr⟩ := h.ticks 2
  rw [push16_plain s v hhi hlo]
  exact ⟨⟨hplatform, hreload, htac⟩, hifr, rfl⟩

theorem TimerQuiet.cleared (h : TimerQuiet s) (t : Irq) (pc : Word) :
    TimerQuiet { clearInterrupt t s with pc := pc } := ⟨h.platform, h.noReload, h.disabled⟩

/-- Taking an interrupt with the stack in plain memory stores `pc` and clears one bit of IF: quiet ticks touch neither. -/
theorem TimerQuiet.dispatch (h : TimerQuiet s) (t : Irq) (hhi : plainAt s (s.sp - 1) = true)
    (hlo : plainAt s (s.sp - 2) = true) :
    (dispatch t s).flat = (s.flat.write (s.sp - 1) (hiByte s.pc)).write (s.sp - 2) (loByte s.pc) ∧
      (dispatch t s).ifr = (clearInterrupt t s).ifr := by
  have hstart : TimerQuiet { s with ime := false } := ⟨h.platform, h.noReload, h.disabled⟩
  obtain ⟨hpushed, hifr, hflat⟩ := hstart.tick.tick.push16 s.pc
    (by rw [plainAt_tick, plainAt_tick, tick_sp, tick_sp]; exact hhi)
    (by rw [plainAt_tick, plainAt_tick, tick_sp, tick_sp]; exact hlo)
  rw [hstart.tick.tick_ifr, hstart.tick_ifr] at hifr
  rw [tick_sp, tick_sp, tick_flat, tick_flat] at hflat
  rw [dispatch_eq]
  exact ⟨(tick_flat _).trans hflat, (hpushed.cleared t t.vector).tick_ifr.trans (congrArg (· &&& ~~~t.mask) hifr)⟩

/-- Settles O13: the step takes the interrupt on a quiet machine, where ending HALT has no part. -/
theorem dispatchStackAndFlag : Obligations.DispatchStackAndFlag := by
  intro s t hs hime hc hplatform hreload htac hhi hlo
  have hquiet : TimerQuiet { s with halted := false } := ⟨hplatform, hreload, htac⟩
  obtain ⟨hflat, hifr⟩ := hquiet.dispatch t hhi hlo
  exact ⟨_, step_dispatch hs hime hc, hflat, fun u => hifr ▸ getLsbD_clearInterrupt t u { s with halted := false }⟩

end Sys2Proof.Machine
end

section
/-! PROOFS. A snapshot and the machine it was taken of (spec/70_reset_and_hazards.md R372, R379; spec/60_exceptions.md R324). -/

namespace Sys2Proof.Machine

variable {s t : State} {p : Snapshot}

theorem save_isSome (s : State) : (save s).isSome = s.faulted.isNone := by
  unfold save
  cases s.faulted <;> rfl

theorem faulted_of_save (h : save s = some p) : s.faulted = none := by
  have hsome : (save s).isSome = true := by rw [h, Option.isSome_some]
  rwa [save_isSome, Option.isNone_iff_eq_none] at hsome

/-- A load writes all that a step can change but the count and the two report fields, and construction fixes the rest. -/
theorem load_of_save (h : save s = some p) (hst : SameConstruction s t) :
    load p t = { s with cycles := t.cycles, curOp := t.curOp, opaddr := t.opaddr } := by
  obtain ⟨hcfg, hregistry⟩ := hst
  have hfaulted := faulted_of_save h
  simp only [save, hfaulted, Option.some.injEq] at h
  subst h
  simp only [load, hcfg, hregistry, hfaulted]

/-- Settles O59: what a snapshot holds, what construction fixed and `faulted`, which is clear, are the whole state but the
count and the report fields. -/
theorem snapshotRoundTrip : Obligations.SnapshotRoundTrip :=
  ⟨fun _ _ _ => load_of_save, save_isSome, fun _ => rfl⟩

end Sys2Proof.Machine
end

section
/-! PROOFS. The timer, the interrupt registers and the count of cycles are read by nothing but a bus read of one of the six CORE
addresses, by what is pending and by themselves (spec/70_reset_and_hazards.md R380, spec/60_exceptions.md R340): every other
operation takes machines that agree up to them to machines that agree up to them. -/

namespace Sys2Proof.Machine

/-- The part of the state that the ticks count in or that only the interrupt controller reads. -/
structure TimerPart where
  counter : Word
  tima : Byte
  tma : Byte
  tac : BitVec 3
  reloadPending : Bool
  ie : Byte
  ifr : BitVec 5
  cycles : Nat

def State.timerPart (s : State) : TimerPart :=
  { counter := s.counter, tima := s.tima, tma := s.tma, tac := s.tac, reloadPending := s.reloadPending, ie := s.ie
    ifr := s.ifr, cycles := s.cycles }

/-- The same machine with another timer part. -/
def State.withTimer (s : State) (p : TimerPart) : State :=
  { s with
    counter := p.counter, tima := p.tima, tma := p.tma, tac := p.tac, reloadPending := p.reloadPending, ie := p.ie
    ifr := p.ifr, cycles := p.cycles }

@[simp] theorem State.withTimer_cfg (s : State) (p : TimerPart) : (s.withTimer p).cfg = s.cfg := rfl

@[simp] theorem State.withTimer_registry (s : State) (p : TimerPart) : (s.withTimer p).registry = s.registry := rfl

/-- The two machines differ in their timer parts at most. -/
def UpToTimer (s t : State) : Prop := ∃ p, t = s.withTimer p

/-- The operation takes machines that agree up to the timer part to machines that do. -/
def TimerBlind (f : State → State) : Prop := ∀ ⦃s t : State⦄, UpToTimer s t → UpToTimer (f s) (f t)

/-- Both meanings answer a next state, and these agree up to the timer part. -/
inductive NextUpToTimer : Result → Result → Prop
  | next {s t : State} (h : UpToTimer s t) : NextUpToTimer (.next s) (.next t)

variable {s t u w : State}

/-! ### Agreement up to the timer part -/

theorem UpToTimer.of_eq (h : t = s.withTimer t.timerPart) : UpToTimer s t := ⟨t.timerPart, h⟩

theorem UpToTimer.refl (s : State) : UpToTimer s s := .of_eq rfl

theorem UpToTimer.symm (h : UpToTimer s t) : UpToTimer t s := by
  obtain ⟨p, rfl⟩ := h
  exact .of_eq rfl

theorem UpToTimer.trans (hst : UpToTimer s t) (htu : UpToTimer t u) : UpToTimer s u := by
  obtain ⟨p, rfl⟩ := hst
  obtain ⟨q, rfl⟩ := htu
  exact ⟨q, rfl⟩

theorem upToTimer_withTimer (s : State) (p : TimerPart) : UpToTimer s (s.withTimer p) := ⟨p, rfl⟩

theorem eq_withTimer_of_agree (hcpu : s.cpu = t.cpu) (hflat : s.flat = t.flat) (henv : s.env = t.env)
    (hst : SameConstruction s t) : t = s.withTimer t.timerPart := by
  obtain ⟨hcfg, hregistry⟩ := hst
  have hparts : s.withTimer t.timerPart =
      { t.withCpu s.cpu with flat := s.flat, env := s.env, cfg := s.cfg, registry := s.registry } := rfl
  rw [hparts, hcpu, hflat, henv, ← hcfg, ← hregistry]
  rfl

theorem UpToTimer.agree (h : UpToTimer s t) : s.cpu = t.cpu ∧ s.flat = t.flat ∧ s.env = t.env := by
  obtain ⟨p, rfl⟩ := h
  exact ⟨rfl, rfl, rfl⟩

theorem upToTimer_ite (c : Bool) (hx : UpToTimer s t) (hy : UpToTimer u w) :
    UpToTimer (if c = true then s else u) (if c = true then t else w) := by
  cases c
  · exact hy
  · exact hx

theorem nextUpToTimer_ite (c : Bool) {x x' y y' : Result} (hx : NextUpToTimer x x') (hy : NextUpToTimer y y') :
    NextUpToTimer (if c = true then x else y) (if c = true then x' else y') := by
  cases c
  · exact hy
  · exact hx

theorem timerBlind_of_commutes {f : State → State} (hf : ∀ s p, f (s.withTimer p) = (f s).withTimer p) : TimerBlind f := by
  rintro s _ ⟨p, rfl⟩
  exact ⟨p, hf s p⟩

/-- An operation that writes nothing but the timer part. -/
theorem timerBlind_of_upToTimer {f : State → State} (hf : ∀ s, UpToTimer s (f s)) : TimerBlind f := fun s t h =>
  (hf s).symm.trans (h.trans (hf t))

/-! ### Time -/

theorem upToTimer_timerEdge (old new : Word) (s : State) : UpToTimer s (timerEdge old new s) := by
  unfold timerEdge
  split
  · exact .of_eq rfl
  · exact .refl s

theorem upToTimer_applyReload (s : State) : UpToTimer s (applyReload s) := by
  rw [applyReload_eq]
  split
  · exact .of_eq rfl
  · exact .refl s

theorem upToTimer_resetDivider (s : State) : UpToTimer s (resetDivider s) :=
  UpToTimer.trans (t := { s with counter := 0 }) (.of_eq rfl) (upToTimer_timerEdge _ _ _)

theorem upToTimer_advanceCounter (s : State) : UpToTimer s (advanceCounter s) :=
  UpToTimer.trans (t := { s with counter := s.counter + 4 }) (.of_eq rfl) (upToTimer_timerEdge _ _ _)

theorem upToTimer_tickQuietly (s : State) : UpToTimer s (tickQuietly s) :=
  ((upToTimer_applyReload s).trans (upToTimer_advanceCounter _)).trans (.of_eq rfl)

/-- `Notify` goes by the platform and its state alone (R342). -/
theorem timerBlind_notify (n : Nat) : TimerBlind (notify n) := by
  rintro s _ ⟨p, rfl⟩
  cases h : s.cfg.platform with
  | flat =>
    rw [notify_flatPlatform s n h, notify_flatPlatform (s.withTimer p) n h]
    exact ⟨p, rfl⟩
  | external =>
    apply UpToTimer.of_eq
    simp [notify, State.withTimer, State.timerPart, h]

theorem timerBlind_tick : TimerBlind tick := fun s t h => by
  rw [tick_eq_notify, tick_eq_notify]
  exact timerBlind_notify 4 (timerBlind_of_upToTimer upToTimer_tickQuietly h)

theorem timerBlind_ticks (n : Nat) : TimerBlind (ticks n) := by
  induction n with
  | zero => exact fun _ _ h => h
  | succ n ih => exact fun _ _ h => ih (timerBlind_tick h)

/-! ### Writes -/

theorem upToTimer_writeCore (r : CoreReg) (v : Byte) (s : State) : UpToTimer s (writeCore r v s) := by
  cases r
  case div => exact upToTimer_resetDivider s
  all_goals exact .of_eq rfl

theorem timerBlind_writeHandler (h : Handler) (a : Word) (v : Byte) : TimerBlind (writeHandler h a v) := by
  cases h with
  | core r => exact timerBlind_of_upToTimer (upToTimer_writeCore r v)
  | peripheral =>
    rintro s _ ⟨p, rfl⟩
    exact upToTimer_ite (Config.peripheralWrite s.env a v).1 ⟨p, rfl⟩ ⟨p, rfl⟩

theorem timerBlind_platformWrite (a : Word) (v : Byte) : TimerBlind (platformWrite a v) :=
  timerBlind_of_commutes fun s p => by cases h : s.cfg.platform <;> simp [platformWrite, State.withTimer, h]

/-- A bus write may change the timer part, and never looks at it (R69, R72). -/
theorem timerBlind_busWrite (a : Word) (v : Byte) : TimerBlind (busWrite a v) := by
  rintro s _ ⟨p, rfl⟩
  unfold busWrite
  rw [State.withTimer_cfg, State.withTimer_registry]
  cases inWindow s.cfg a with
  | false => exact timerBlind_platformWrite a v ⟨p, rfl⟩
  | true =>
    cases s.registry.lookup a with
    | some h => exact timerBlind_writeHandler h a v ⟨p, rfl⟩
    | none => exact ⟨p, rfl⟩

theorem timerBlind_memWrite (a : Word) (v : Byte) : TimerBlind (memWrite a v) := by
  rintro s _ ⟨p, rfl⟩
  unfold memWrite
  rw [State.withTimer_cfg]
  cases s.cfg.accessPhase with
  | accessThenTick => exact timerBlind_tick (timerBlind_busWrite a v ⟨p, rfl⟩)
  | tickThenAccess => exact timerBlind_busWrite a v (timerBlind_tick ⟨p, rfl⟩)

theorem timerBlind_memWrite_decSp (v : Byte) :
    TimerBlind fun s => memWrite (s.sp - 1) v { s with sp := s.sp - 1 } := by
  rintro s _ ⟨p, rfl⟩
  exact timerBlind_memWrite (s.sp - 1) v (upToTimer_withTimer { s with sp := s.sp - 1 } p)

theorem timerBlind_push16 (v : Word) : TimerBlind (push16 v) := fun _ _ h =>
  timerBlind_memWrite_decSp (loByte v) (timerBlind_memWrite_decSp (hiByte v) h)

/-! ### Reads of plain memory -/

/-- A meaning that reads one byte of plain memory: the byte is that of `flat`. -/
theorem finish_memRead_upToTimer {a : Word} {k : Byte → State → State} (hk : ∀ v, TimerBlind (k v))
    (ha : plainAt s a = true) (p : TimerPart) :
    NextUpToTimer ((memRead a s).finish k) ((memRead a (s.withTimer p)).finish k) := by
  rw [memRead_plain s a ha, memRead_plain (s.withTimer p) a ha]
  exact .next (hk _ (timerBlind_tick ⟨p, rfl⟩))

/-- A meaning that pops a word off plain memory. -/
theorem finish_pop16_upToTimer {k : Word → State → State} (hk : ∀ v, TimerBlind (k v))
    (hplain : ∀ a ∈ [s.sp, s.sp + 1], plainAt s a = true) (h : UpToTimer s t) :
    NextUpToTimer ((pop16 s).finish k) ((pop16 t).finish k) := by
  obtain ⟨p, rfl⟩ := h
  have hlo : plainAt s s.sp = true := hplain _ (by simp)
  have hhi : plainAt s (s.sp + 1) = true := hplain _ (by simp)
  rw [pop16_plain s hlo hhi, pop16_plain (s.withTimer p) hlo hhi]
  obtain ⟨q, hq⟩ := timerBlind_ticks 2 (upToTimer_withTimer s p)
  rw [hq]
  exact .next (hk _ (upToTimer_withTimer { ticks 2 s with sp := s.sp + 2 } q))

/-! ### Registers and shared bodies -/

theorem setR8_withTimer (s : State) (p : TimerPart) (r : Reg8) (v : Byte) :
    (s.withTimer p).setR8 r v = (s.setR8 r v).withTimer p := by cases r <;> rfl

theorem setR8Alu_withTimer (s : State) (p : TimerPart) (r : Reg8) (o : AluOut) :
    (s.withTimer p).setR8Alu r o = (s.setR8Alu r o).withTimer p := by cases r <;> rfl

theorem setR16_withTimer (s : State) (p : TimerPart) (rr : Reg16) (v : Word) :
    (s.withTimer p).setR16 rr v = (s.setR16 rr v).withTimer p := by cases rr <;> rfl

theorem setStk_withTimer (s : State) (p : TimerPart) (qq : RegStk) (v : Word) :
    (s.withTimer p).setStk qq v = (s.setStk qq v).withTimer p := by cases qq <;> rfl

theorem timerBlind_jumpTo (target : Word) : TimerBlind (jumpTo target) := by
  rintro s _ ⟨p, rfl⟩
  exact upToTimer_ite (s.cfg.selfJumpCheck && target == s.opaddr) ⟨p, rfl⟩
    (timerBlind_tick (upToTimer_withTimer { s with pc := target } p))

theorem timerBlind_setPc (target : Word) : TimerBlind fun s => { s with pc := target } :=
  timerBlind_of_commutes fun _ _ => rfl

theorem timerBlind_setIme (b : Bool) : TimerBlind fun s => { s with ime := b } := timerBlind_of_commutes fun _ _ => rfl

theorem timerBlind_callTo (target : Word) : TimerBlind (callTo target) := by
  rintro s _ ⟨p, rfl⟩
  rw [callTo_eq, callTo_eq]
  exact timerBlind_setPc target (timerBlind_push16 s.pc (timerBlind_tick ⟨p, rfl⟩))

theorem doReturn_upToTimer (hplain : ∀ a ∈ [s.sp, s.sp + 1], plainAt s a = true) (h : UpToTimer s t) :
    NextUpToTimer (doReturn s) (doReturn t) :=
  finish_pop16_upToTimer (fun v _ _ h => timerBlind_tick (timerBlind_setPc v h)) hplain h

theorem returnFromInterrupt_upToTimer (hplain : ∀ a ∈ [s.sp, s.sp + 1], plainAt s a = true) (h : UpToTimer s t) :
    NextUpToTimer (returnFromInterrupt s) (returnFromInterrupt t) :=
  finish_pop16_upToTimer (fun v _ _ h => timerBlind_setIme true (timerBlind_tick (timerBlind_setPc v h))) hplain h

theorem rmwHl_upToTimer {op : Byte → State → AluOut} (hop : ∀ v u p, op v (u.withTimer p) = op v u)
    (hplain : plainAt s s.hl = true) (p : TimerPart) : NextUpToTimer (rmwHl op s) (rmwHl op (s.withTimer p)) := by
  refine finish_memRead_upToTimer (fun v => ?_) hplain p
  rintro u _ ⟨q, rfl⟩
  simp only [hop]
  exact timerBlind_of_commutes (f := fun w => w.setFlagsOf (op v u)) (fun _ _ => rfl)
    (timerBlind_memWrite u.hl (op v u).r ⟨q, rfl⟩)

theorem updateHl_upToTimer (f : Byte → Byte) (hplain : plainAt s s.hl = true) (p : TimerPart) :
    NextUpToTimer (updateHl f s) (updateHl f (s.withTimer p)) := by
  refine finish_memRead_upToTimer (fun v => ?_) hplain p
  rintro u _ ⟨q, rfl⟩
  exact timerBlind_memWrite u.hl (f v) ⟨q, rfl⟩

/-- HALT alone looks at what is pending. -/
theorem exec_halt_upToTimer (s : State) (p : TimerPart) (hp : pending s = pending (s.withTimer p)) :
    NextUpToTimer (exec .halt s) (exec .halt (s.withTimer p)) := by
  change NextUpToTimer _ (if (!s.ime && pending (s.withTimer p) != 0) = true then _ else _)
  rw [← hp]
  exact nextUpToTimer_ite (!s.ime && pending s != 0) (.next ⟨p, rfl⟩) (.next ⟨p, rfl⟩)

theorem exec_retCc_upToTimer (cc : Cond) (hplain : ∀ a ∈ dataReads (.retCc cc) s, plainAt s a = true) (p : TimerPart) :
    NextUpToTimer (exec (.retCc cc) s) (exec (.retCc cc) (s.withTimer p)) := by
  have htick : UpToTimer (tick s) (tick (s.withTimer p)) := timerBlind_tick ⟨p, rfl⟩
  cases hc : s.cond cc with
  | true =>
    rw [exec_retCc_taken s hc, exec_retCc_taken (s.withTimer p) hc]
    rw [show dataReads (.retCc cc) s = [s.sp, s.sp + 1] from if_pos hc] at hplain
    exact doReturn_upToTimer (by simpa using hplain) htick
  | false =>
    rw [exec_retCc_notTaken s hc, exec_retCc_notTaken (s.withTimer p) hc]
    exact .next htick

/-! ### Instructions -/

/-- Every instruction is one of the operations above, or writes registers from registers alone. What it reads from memory must
be plain, and HALT needs the same sources pending. -/
theorem exec_upToTimer (i : Instr) (s : State) (p : TimerPart) (hp : pending s = pending (s.withTimer p))
    (hplain : ∀ a ∈ dataReads i s, plainAt s a = true) : NextUpToTimer (exec i s) (exec i (s.withTimer p)) := by
  have hs : UpToTimer s (s.withTimer p) := ⟨p, rfl⟩
  have htick : UpToTimer (tick s) (tick (s.withTimer p)) := timerBlind_tick hs
  cases i
  case jpNn nn => exact .next (timerBlind_jumpTo nn hs)
  case jrE e => exact .next (timerBlind_jumpTo (relTarget e s) hs)
  case jpCcNn cc nn => exact nextUpToTimer_ite (s.cond cc) (.next (timerBlind_jumpTo nn hs)) (.next hs)
  case jrCcE cc e => exact nextUpToTimer_ite (s.cond cc) (.next (timerBlind_jumpTo (relTarget e s) hs)) (.next hs)
  case callNn nn => exact .next (timerBlind_callTo nn hs)
  case rst nn => exact .next (timerBlind_callTo nn hs)
  case callCcNn cc nn => exact nextUpToTimer_ite (s.cond cc) (.next (timerBlind_callTo nn hs)) (.next hs)
  case ret => exact doReturn_upToTimer hplain hs
  case reti => exact returnFromInterrupt_upToTimer hplain hs
  case retCc cc => exact exec_retCc_upToTimer cc hplain p
  case pushQq qq =>
    rw [exec_pushQq, exec_pushQq]
    exact .next (timerBlind_push16 (s.stk qq) htick)
  case pushAf =>
    change NextUpToTimer (exec (.pushQq .af) s) (exec (.pushQq .af) (s.withTimer p))
    rw [exec_pushQq, exec_pushQq]
    exact .next (timerBlind_push16 s.af htick)
  case popQq qq => exact finish_pop16_upToTimer (fun v => timerBlind_of_commutes fun u q => setStk_withTimer u q qq v) hplain hs
  case popAf => exact finish_pop16_upToTimer (fun v => timerBlind_of_commutes fun _ _ => rfl) hplain hs
  case ldNnSp nn => exact .next (timerBlind_memWrite (nn + 1) _ (timerBlind_memWrite nn _ hs))
  case ldHliA =>
    exact .next (timerBlind_of_commutes (f := fun u => u.setHl (u.hl + 1)) (fun _ _ => rfl) (timerBlind_memWrite s.hl s.a hs))
  case ldHldA =>
    exact .next (timerBlind_of_commutes (f := fun u => u.setHl (u.hl - 1)) (fun _ _ => rfl) (timerBlind_memWrite s.hl s.a hs))
  case ldBcA | ldDeA | ldHlN | ldHlR | ldhNA | ldhCA | ldNnA => exact .next (timerBlind_memWrite _ _ hs)
  case incHl | decHl | rlcHl | rrcHl | rlHl | rrHl | slaHl | sraHl | swapHl | srlHl =>
    exact rmwHl_upToTimer (fun _ _ _ => rfl) (hplain _ (List.mem_singleton_self _)) p
  case resBHl | setBHl => exact updateHl_upToTimer _ (hplain _ (List.mem_singleton_self _)) p
  case ldRHl r =>
    exact finish_memRead_upToTimer (fun v => timerBlind_of_commutes fun u q => setR8_withTimer u q r v)
      (hplain _ (List.mem_singleton_self _)) p
  case ldABc | ldADe | ldANn | ldhAC | ldhAN | ldAHli | ldAHld | addAHl | adcAHl | subHl | sbcAHl | andHl | xorHl | orHl
      | cpHl | bitBHl =>
    exact finish_memRead_upToTimer (fun _ => timerBlind_of_commutes fun _ _ => rfl) (hplain _ (List.mem_singleton_self _)) p
  case halt => exact exec_halt_upToTimer s p hp
  case ldRR | ldRN | resBR | setBR => exact .next ⟨p, setR8_withTimer s p _ _⟩
  case incR | decR | rlcR | rrcR | rlR | rrR | slaR | sraR | swapR | srlR => exact .next ⟨p, setR8Alu_withTimer s p _ _⟩
  case ldRrNn => exact .next ⟨p, setR16_withTimer s p _ _⟩
  case incRr | decRr => exact .next (timerBlind_tick ⟨p, setR16_withTimer s p _ _⟩)
  case addHlRr | ldSpHl | ldHlSpE => exact .next (timerBlind_tick ⟨p, rfl⟩)
  case addSpE e =>
    exact .next (timerBlind_of_commutes (f := fun u => { u with sp := (addSp s.sp e).r }) (fun _ _ => rfl)
      (timerBlind_tick (timerBlind_tick ⟨p, rfl⟩)))
  all_goals exact .next ⟨p, rfl⟩

/-- Settles O58: the two machines differ in their timer parts at most, and so do the next states. -/
theorem timerDoesNotLeak : Obligations.TimerDoesNotLeak := by
  intro i s s' t t' hcpu hflat henv hst hpending hplain ht ht'
  have heq := eq_withTimer_of_agree hcpu hflat henv hst
  have hnext := exec_upToTimer i s s'.timerPart (heq ▸ hpending) hplain
  rw [← heq, ht, ht'] at hnext
  cases hnext with
  | next h => exact h.agree

end Sys2Proof.Machine
end
